-- ==== Sys2Proof/Word.lean ====
section
/-! DEFINITION. The word types of the core: bytes, 16-bit samples, pixels, packets, and the indexed memories. -/

namespace Sys2Proof

/-- One byte of a packet, a datagram or a shelf slot. -/
abbrev Byte := BitVec 8

/-- One 16-bit unsigned sample or grid cell (20_memory.md R43, R44). -/
abbrev Sample := BitVec 16

/-- One preview pixel, three 8-bit channels in the order R, G, B (20_memory.md R45). -/
structure Pixel where
  red : Byte
  green : Byte
  blue : Byte
deriving DecidableEq, Repr, Inhabited

/-- The background colour (0,0,0) of the preview at reset (10_state.md R30). -/
def Pixel.black : Pixel := ⟨0, 0, 0⟩

/-- One packet, always 164 bytes, byte 0 first (30_encoding.md R61). -/
abbrev Packet := Vector Byte 164

/-- A memory of values of type `α` by index: a list of (index, value) pairs, indices rising,
no entry equal to the value an unlisted index reads as. `Mem Byte` is a list of `Host.Cell`. -/
abbrev Mem (α : Type) := List (Nat × α)

end Sys2Proof
end

