-- ==== Sys2Proof/Config.lean ====
section
/-! DEFINITION. The constants the document fixes and the parameters it leaves open (00_scope.md R7). -/

namespace Sys2Proof

/-- `PACKET_SIZE` in bytes. -/
@[simp] abbrev Config.packetSize : Nat := 164
/-- `PACKET_WORDS`: 16-bit sample positions of a packet. -/
@[simp] abbrev Config.packetWords : Nat := 82
/-- `HEADER_WORDS`: sample positions at the start of a packet that are not samples. -/
@[simp] abbrev Config.headerWords : Nat := 2
/-- `PACKETS_PER_FRAME`: packets of one segment. -/
@[simp] abbrev Config.packetsPerFrame : Nat := 60
/-- `SEGMENT_BYTES`. -/
@[simp] abbrev Config.segmentBytes : Nat := 9840
/-- `SEGMENT_WORDS`. -/
@[simp] abbrev Config.segmentWords : Nat := 4920
/-- `GRID_W`. -/
@[simp] abbrev Config.gridWidth : Nat := 160
/-- `GRID_W` times `GRID_H`: the cells of the grid. -/
@[simp] abbrev Config.gridCells : Nat := 19200
/-- `SEG_POS`: the packet position that carries the segment identifier. -/
@[simp] abbrev Config.segPos : Nat := 20
/-- `RESET_THRESHOLD`. -/
@[simp] abbrev Config.resetThreshold : Nat := 750
/-- `POLL_PERIOD` in packets. -/
@[simp] abbrev Config.pollPeriod : Nat := 20
/-- `ROW_STRIDE_PER_SEG`. -/
@[simp] abbrev Config.rowStridePerSeg : Nat := 30
/-- `SCALE_NUM`. -/
@[simp] abbrev Config.scaleNum : Nat := 255

/-- `SEG_COUNT(variant)`: segments of a frame; variant 0 is low-res, 1 is high-res (10_state.md R22). -/
def Config.segCount (variant : BitVec 1) : Nat := if variant = 0 then 1 else 4
/-- `WIDTH(variant)`. -/
def Config.width (variant : BitVec 1) : Nat := if variant = 0 then 80 else 160
/-- `HEIGHT(variant)`. -/
def Config.height (variant : BitVec 1) : Nat := if variant = 0 then 60 else 120

/-- A palette ROM: a flat sequence of at least one 8-bit entry (20_memory.md R46: `PAL_LEN >= 1`,
every entry in 0 .. 255, so an ill-shaped palette cannot be written down). -/
structure Palette where
  first : Byte
  rest : List Byte
deriving DecidableEq, Repr, Inhabited

/-- The entries of the ROM in order. -/
def Palette.entries (p : Palette) : List Byte := p.first :: p.rest

/-- `PAL_LEN`: the flat count of integers, not of triples (90_conflicts.md C1). -/
def Palette.len (p : Palette) : Nat := p.rest.length + 1

/-- The open parameters of 00_scope.md R7 as one record. State carries it and no step writes it
(DESIGN CHOICE, log entry 1), so a statement about every state holds for every value of it. -/
structure Params where
  /-- `BACKOFF_TIME`, a lower bound; the unit is the platform's. -/
  backoffTime : Nat
  /-- `WARMUP_TIME`, a lower bound; the unit is the platform's. -/
  warmupTime : Nat
  /-- `BUS_ID`. -/
  busId : Nat
  /-- `BUS_CLOCK_DEFAULT`, the reset value of `CFG_BUS_CLOCK`. -/
  busClockDefault : BitVec 32
  /-- `CMD_MAX_LEN` less 3: the spec asks for at least 3. -/
  cmdMaxExtra : Nat
  /-- `OUT_BIG_ENDIAN`, decided false, kept a parameter (30_encoding.md R66). -/
  outBigEndian : Bool
  /-- `PALETTE[0]`. -/
  ironblack : Palette
  /-- `PALETTE[1]`. -/
  rainbow : Palette
  /-- `PALETTE[2]`. -/
  grayscale : Palette
deriving DecidableEq, Repr, Inhabited

/-- `CMD_MAX_LEN` (30_encoding.md R64). -/
def Params.cmdMaxLen (p : Params) : Nat := 3 + p.cmdMaxExtra

/-- OPEN in the spec, so without a body (log entry 1). -/
opaque Config.backoffTime : Nat
/-- OPEN in the spec, so without a body (log entry 1). -/
opaque Config.warmupTime : Nat
/-- OPEN in the spec, so without a body (log entry 1). -/
opaque Config.busId : Nat
/-- OPEN in the spec, so without a body (log entries 1 and 3). -/
opaque Config.busClockDefault : BitVec 32
/-- OPEN in the spec, so without a body (log entry 1). -/
opaque Config.cmdMaxExtra : Nat
/-- OPEN in the spec, so without a body (log entry 1). -/
opaque Config.ironblack : Palette
/-- OPEN in the spec, so without a body (log entry 1). -/
opaque Config.rainbow : Palette
/-- OPEN in the spec, so without a body (log entry 1). -/
opaque Config.grayscale : Palette

/-- The parameters of the machine whose run begins at `State.reset`. -/
def Config.params : Params where
  backoffTime := Config.backoffTime
  warmupTime := Config.warmupTime
  busId := Config.busId
  busClockDefault := Config.busClockDefault
  cmdMaxExtra := Config.cmdMaxExtra
  outBigEndian := false
  ironblack := Config.ironblack
  rainbow := Config.rainbow
  grayscale := Config.grayscale

end Sys2Proof
end

