-- ==== Sys2Proof/Syntax.lean ====
section
/-! DEFINITION. The operations of the core, one constructor for each row of opcode_table.json (30_encoding.md R70). -/

namespace Sys2Proof

/-- The closed set of operations. Operands are those the row's `source_fields` name and the
operation uses; everything else an operation reads is a register. -/
inductive Instr where
  /-- `CFG.WR(num, value)`: 45_host_control.md R146. -/
  | cfgWr (num : BitVec 4) (value : BitVec 32)
  /-- `CFG.RD(num)`: 45_host_control.md R148. -/
  | cfgRd (num : BitVec 4)
  /-- `START(netOk)`: 45_host_control.md R147. -/
  | start (netOk : Bool)
  /-- `RESET`: 70_reset_and_hazards.md R180. -/
  | reset
  /-- `ATT.BEGIN`: 40_synchronizer.md R81. -/
  | attBegin
  /-- `PKT.RD`: 40_synchronizer.md R82. -/
  | pktRd
  /-- `PKT.ACCEPT`: 40_synchronizer.md R83. -/
  | pktAccept
  /-- `PKT.SEGOK` with the extracted `SEG`: 40_synchronizer.md R84. -/
  | pktSegok (seg : BitVec 4)
  /-- `PKT.SEGBAD` with the extracted `SEG`: 40_synchronizer.md R85. -/
  | pktSegbad (seg : BitVec 4)
  /-- `PKT.DESYNC`: 40_synchronizer.md R86. -/
  | pktDesync
  /-- `PKT.FATAL`: 40_synchronizer.md R87. -/
  | pktFatal
  /-- `SYN.BACKOFF`: 40_synchronizer.md R88. -/
  | synBackoff
  /-- `RBT.CLOSE`: 40_synchronizer.md R89. -/
  | rbtClose
  /-- `RBT.REBOOT`: 40_synchronizer.md R90. -/
  | rbtReboot
  /-- `RBT.WARM`: 40_synchronizer.md R91. -/
  | rbtWarm
  /-- `RBT.OPEN`: 40_synchronizer.md R92. -/
  | rbtOpen
  /-- `RSM.STORE_LR`: 41_reassembler.md R101. -/
  | rsmStoreLr
  /-- `RSM.STORE_HR`: 41_reassembler.md R102. -/
  | rsmStoreHr
  /-- `RSM.STORE_HR4`: 41_reassembler.md R103. -/
  | rsmStoreHr4
  /-- `RSM.INVALID`: 41_reassembler.md R104. -/
  | rsmInvalid
  /-- `RSM.EXTRACT`: 41_reassembler.md R106. -/
  | rsmExtract
  /-- `RNG.HOLD`: 42_range_tracker.md R116. -/
  | rngHold
  /-- `RNG.SCAN`: 42_range_tracker.md R117. -/
  | rngScan
  /-- `RNG.SCALE`: 42_range_tracker.md R118. -/
  | rngScale
  /-- `PAL.MAP`: 43_palette_mapper.md R126. -/
  | palMap
  /-- `PUB.RAW`: 44_publisher.md R136. -/
  | pubRaw
  /-- `PUB.PREVIEW`: 44_publisher.md R137. -/
  | pubPreview
  /-- `PUB.POLL`: 44_publisher.md R138. -/
  | pubPoll
  /-- `CMD.POLL`: 44_publisher.md R135. -/
  | cmdPoll
deriving DecidableEq, Repr

end Sys2Proof
end

