-- ==== Sys2Proof/WellFormed.lean ====
section
/-! DEFINITION. Which operations with operands the decoder can select. -/

namespace Sys2Proof

/-- A segment identifier inside [`SEG_MIN`, `SEG_MAX`] = [1, 4] (00_scope.md R7). -/
def segValid (seg : BitVec 4) : Bool := 1 ≤ seg.toNat && seg.toNat ≤ 4

/-- `PKT.SEGOK` carries a valid identifier and `PKT.SEGBAD` one outside 1 .. 4
(30_encoding.md R62 cases 3 and 4); every other operand value is admitted: a register number or
value that `CFG.WR` does not take is well-formed and ignored (30_encoding.md R71). -/
def Instr.wf : Instr → Bool
  | .pktSegok seg => segValid seg
  | .pktSegbad seg => !segValid seg
  | .cfgWr _ _ | .cfgRd _ | .start _ | .reset | .attBegin | .pktRd | .pktAccept | .pktDesync
  | .pktFatal | .synBackoff | .rbtClose | .rbtReboot | .rbtWarm | .rbtOpen | .rsmStoreLr
  | .rsmStoreHr | .rsmStoreHr4 | .rsmInvalid | .rsmExtract | .rngHold | .rngScan | .rngScale
  | .palMap | .pubRaw | .pubPreview | .pubPoll | .cmdPoll => true

end Sys2Proof
end

