-- ==== Sys2Proof/Decode.lean ====
section
/-! DEFINITION. What selects an operation: field extraction, the decoder over selectors, the encoder,
and the token match of an inbound datagram (30_encoding.md). -/

namespace Sys2Proof

/-- `SEQ_OFFSET`, decided (00_scope.md R7, 92_eei_decisions.md D2; log entry 10). -/
def seqOffset : Nat := 1
/-- `SEG_BYTE`, decided (00_scope.md R7, 92_eei_decisions.md D3; log entry 10). -/
def segByte : Nat := 0
/-- `SEG_SHIFT`, decided (00_scope.md R7, 92_eei_decisions.md D3; log entry 10). -/
def segShift : Nat := 4

/-- The 32 header bits of a packet, byte 0 in the most significant place (30_encoding.md R73). -/
def header (b0 b1 b2 b3 : Byte) : BitVec 32 :=
  BitVec.ofNat 32 (b0.toNat * 2 ^ 24 + b1.toNat * 2 ^ 16 + b2.toNat * 2 ^ 8 + b3.toNat)

/-- Byte `k` (0 .. 3) of a header. -/
def headerByte (h : BitVec 32) (k : Nat) : Byte := BitVec.ofNat 8 (h.toNat / 2 ^ (8 * (3 - k)))

/-- `SEQ`, 8 bits unsigned (30_encoding.md R63). -/
def seqField (h : BitVec 32) : BitVec 8 := headerByte h seqOffset

/-- `SEG`, 4 bits unsigned, `(byte div 16) mod 16` (30_encoding.md R63). -/
def segField (h : BitVec 32) : BitVec 4 :=
  BitVec.ofNat 4 ((headerByte h segByte).toNat / 2 ^ segShift)

/-- The five operations a packet read can select (30_encoding.md R62). -/
inductive PacketOp where
  | accept
  | segok (seg : BitVec 4)
  | segbad (seg : BitVec 4)
  | desync
  | fatal
deriving DecidableEq, Repr

/-- The ordered test of 30_encoding.md R62; `none` is the transport's `BusFatal`. The sequence
comparison is on all 8 bits. -/
def decodePacket (answer : Option (BitVec 32)) (pos : BitVec 6) (variant : BitVec 1) : PacketOp :=
  match answer with
  | none => .fatal
  | some h =>
    if seqField h ≠ pos.setWidth 8 then .desync
    else if variant = 1 ∧ pos.toNat = Config.segPos then
      if segValid (segField h) then .segok (segField h) else .segbad (segField h)
    else .accept

/-- The operation of the table a packet test names. -/
def PacketOp.instr : PacketOp → Instr
  | .accept => .pktAccept
  | .segok seg => .pktSegok seg
  | .segbad seg => .pktSegbad seg
  | .desync => .pktDesync
  | .fatal => .pktFatal

/-- The half of a step a phase row is selected for: only phase RANGE has a second half (30_encoding.md R73). -/
inductive Half where
  | first
  | second
deriving DecidableEq, Repr

/-- What the core looks at to select an operation: the four row formats of 30_encoding.md R73 with
the conditions of R70. The core has no instruction words (R60; log entry 7). -/
inductive Selector where
  /-- `HOST`: the 2-bit host action code and the operands of the named action. -/
  | host (ha : BitVec 2) (num : BitVec 4) (value : BitVec 32) (netOk : Bool)
  /-- `PHASE`: the 4-bit phase code with `CFG_VARIANT`, `segId` and `CFG_AUTO`. -/
  | phase (code : BitVec 4) (variant : BitVec 1) (segId : BitVec 4) (auto : BitVec 2) (half : Half)
  /-- `PKT`: the packet's header bits, or `none` for `BusFatal`, with `pos` and `CFG_VARIANT`. -/
  | packet (answer : Option (BitVec 32)) (pos : BitVec 6) (variant : BitVec 1)
  /-- `CMD`: a 24-bit window of a datagram's bytes, first byte most significant. -/
  | window (bits : BitVec 24)
deriving DecidableEq, Repr

/-- Why a selector selects no operation. -/
inductive Reject where
  /-- Phase IDLE: only host actions run (10_state.md R12). -/
  | idle
  /-- Phase HALT: no step is enabled (10_state.md R12). -/
  | halt
  /-- The phase has no second half. -/
  | noSecondHalf
  /-- The window is not the command token (30_encoding.md R64). -/
  | noToken
deriving DecidableEq, Repr

/-- The operation of a phase code under the conditions of 30_encoding.md R70. -/
def decodePhase (code : BitVec 4) (variant : BitVec 1) (segId : BitVec 4) (auto : BitVec 2) :
    Except Reject Instr :=
  match code.toNat with
  | 0 => .error .idle
  | 1 => .ok .attBegin
  | 2 => .ok .pktRd
  | 3 => .ok .synBackoff
  | 4 => .ok .rbtClose
  | 5 => .ok .rbtReboot
  | 6 => .ok .rbtWarm
  | 7 => .ok .rbtOpen
  | 8 =>
    if variant = 0 then .ok .rsmStoreLr
    else if !segValid segId then .ok .rsmInvalid
    else if segId = 4 then .ok .rsmStoreHr4
    else .ok .rsmStoreHr
  | 9 => .ok .rsmExtract
  | 10 => if auto = 0 then .ok .rngHold else .ok .rngScan
  | 11 => .ok .palMap
  | 12 => .ok .pubRaw
  | 13 => .ok .pubPreview
  | 14 => .ok .pubPoll
  | _ => .error .halt

/-- The operation of a host action code (30_encoding.md R73). -/
def decodeHost (ha : BitVec 2) (num : BitVec 4) (value : BitVec 32) (netOk : Bool) : Instr :=
  match ha.toNat with
  | 0 => .cfgWr num value
  | 1 => .cfgRd num
  | 2 => .start netOk
  | _ => .reset

/-- The three token bytes "FFC", first byte most significant (30_encoding.md R64, R73). -/
def cmdToken : BitVec 24 := 0x464643

/-- The decoder: total, rejecting by name. -/
def decode : Selector → Except Reject Instr
  | .host ha num value netOk => .ok (decodeHost ha num value netOk)
  | .phase code variant segId auto .first => decodePhase code variant segId auto
  | .phase code _ _ _ .second => if code = 10 then .ok .rngScale else .error .noSecondHalf
  | .packet answer pos variant => .ok (decodePacket answer pos variant).instr
  | .window bits => if bits = cmdToken then .ok .cmdPoll else .error .noToken

/-- A selector that selects the operation, from the same tables (30_encoding.md R70, R73); what the
row leaves open is 0. -/
def encode : Instr → Selector
  | .cfgWr num value => .host 0 num value false
  | .cfgRd num => .host 1 num 0 false
  | .start netOk => .host 2 0 0 netOk
  | .reset => .host 3 0 0 false
  | .attBegin => .phase 1 0 0 0 .first
  | .pktRd => .phase 2 0 0 0 .first
  | .pktAccept => .packet (some (header 0 0 0 0)) 0 0
  | .pktSegok seg => .packet (some (header (BitVec.ofNat 8 (16 * seg.toNat)) 20 0 0)) 20 1
  | .pktSegbad seg => .packet (some (header (BitVec.ofNat 8 (16 * seg.toNat)) 20 0 0)) 20 1
  | .pktDesync => .packet (some (header 0 60 0 0)) 0 0
  | .pktFatal => .packet none 0 0
  | .synBackoff => .phase 3 0 0 0 .first
  | .rbtClose => .phase 4 0 0 0 .first
  | .rbtReboot => .phase 5 0 0 0 .first
  | .rbtWarm => .phase 6 0 0 0 .first
  | .rbtOpen => .phase 7 0 0 0 .first
  | .rsmStoreLr => .phase 8 0 0 0 .first
  | .rsmStoreHr => .phase 8 1 1 0 .first
  | .rsmStoreHr4 => .phase 8 1 4 0 .first
  | .rsmInvalid => .phase 8 1 0 0 .first
  | .rsmExtract => .phase 9 0 0 0 .first
  | .rngHold => .phase 10 0 0 0 .first
  | .rngScan => .phase 10 0 0 3 .first
  | .rngScale => .phase 10 0 0 0 .second
  | .palMap => .phase 11 0 0 0 .first
  | .pubRaw => .phase 12 0 0 0 .first
  | .pubPreview => .phase 13 0 0 0 .first
  | .pubPoll => .phase 14 0 0 0 .first
  | .cmdPoll => .window cmdToken

/-- The bits of a selector that its table row is written over: the host action code, the phase
code, the header bits, the window (30_encoding.md R73). -/
def Selector.rowBits : Selector → Nat
  | .host ha _ _ _ => ha.toNat
  | .phase code _ _ _ _ => code.toNat
  | .packet answer _ _ => (answer.getD 0).toNat
  | .window bits => bits.toNat

/-- The selector a bare table word stands for, with the conditions the word does not carry as they
are after reset (low-res, `segId` 0, both bounds automatic, `pos` 0). The formats HOST and PHASE
overlap in one byte: codes 1 to 14 are read as a phase, 0 as a host action (log entry 7). -/
def tableSelector (nbits w : Nat) : Option Selector :=
  if nbits ≤ 2 then some (.host (BitVec.ofNat 2 w) 0 0 false)
  else if nbits ≤ 8 then
    if w % 16 = 0 then some (.host 0 0 0 false)
    else some (.phase (BitVec.ofNat 4 w) 0 0 3 .first)
  else if nbits = 24 then some (.window (BitVec.ofNat 24 w))
  else if nbits = 32 then some (.packet (some (BitVec.ofNat 32 w)) 0 0)
  else none

/-- The operation the decoder reads from a table word. -/
def decodeTableWord (nbits w : Nat) : Option Instr :=
  match tableSelector nbits w with
  | none => none
  | some sel =>
    match decode sel with
    | .ok i => some i
    | .error _ => none

/-- Three bytes of a datagram as one window, the first most significant (30_encoding.md R73). -/
def windowOf (a b c : Byte) : BitVec 24 :=
  BitVec.ofNat 24 (a.toNat * 2 ^ 16 + b.toNat * 2 ^ 8 + c.toNat)

/-- Whether the token stands at some offset of the bytes. -/
def tokenIn : List Byte → Bool
  | a :: b :: c :: t =>
    match decode (.window (windowOf a b c)) with
    | .ok _ => true
    | .error _ => tokenIn (b :: c :: t)
  | _ => false

/-- `hasToken` of 30_encoding.md R64: the token lies wholly inside the first
`min(len, CMD_MAX_LEN)` bytes. -/
def hasToken (maxLen : Nat) (payload : List Byte) : Bool := tokenIn (payload.take maxLen)

end Sys2Proof
end

