-- ==== Sys2Proof/Machine/State.lean ====
section
/-! DEFINITION. The state of the core as plain data, the environment's pending answers, the model's
records, the reasons a step can stop, and the state after reset (10_state.md). -/

namespace Sys2Proof.Machine

/-- The sequencer's phases (10_state.md R12). -/
inductive Phase where
  | idle
  | attBegin
  | seek
  | backoff
  | rbtClose
  | rbtReboot
  | rbtWarm
  | rbtOpen
  | reasm
  | extract
  | range
  | map
  | pubRaw
  | pubPreview
  | pubPoll
  | halt
deriving DecidableEq, Repr

/-- The 4-bit code of a phase (10_state.md R12). -/
def Phase.code : Phase → BitVec 4
  | .idle => 0
  | .attBegin => 1
  | .seek => 2
  | .backoff => 3
  | .rbtClose => 4
  | .rbtReboot => 5
  | .rbtWarm => 6
  | .rbtOpen => 7
  | .reasm => 8
  | .extract => 9
  | .range => 10
  | .map => 11
  | .pubRaw => 12
  | .pubPreview => 13
  | .pubPoll => 14
  | .halt => 15

/-- The phase of a 4-bit code: every code names one. -/
def Phase.ofCode (c : BitVec 4) : Phase :=
  match c.toNat with
  | 0 => .idle
  | 1 => .attBegin
  | 2 => .seek
  | 3 => .backoff
  | 4 => .rbtClose
  | 5 => .rbtReboot
  | 6 => .rbtWarm
  | 7 => .rbtOpen
  | 8 => .reasm
  | 9 => .extract
  | 10 => .range
  | 11 => .map
  | 12 => .pubRaw
  | 13 => .pubPreview
  | 14 => .pubPoll
  | _ => .halt

/-- The output events (30_encoding.md R69). -/
inductive Event where
  | busOpen (busId : Nat) (clockSpeed : BitVec 32)
  | busClose (busId : Nat)
  | sensorReboot
  | sensorCalibrate
  | netSend (payload : List Byte)
  | previewFrame (width height : Nat) (pixels : List Pixel)
deriving DecidableEq, Repr

/-- The error conditions (60_exceptions.md R155). -/
inductive Cause where
  | transientDesync
  | persistentDesync
  | invalidSegment
  | netSetupFailure
  | degenerateRange
  | busFatal
deriving DecidableEq, Repr

/-- The cause codes, labels for a model's event log (60_exceptions.md R155). -/
def Cause.code : Cause → Nat
  | .transientDesync => 1
  | .persistentDesync => 2
  | .invalidSegment => 3
  | .netSetupFailure => 4
  | .degenerateRange => 5
  | .busFatal => 6

/-- An answer of `BusRead()`: one whole packet or `BusFatal` (60_exceptions.md R172). -/
inductive BusAnswer where
  | packet (bytes : Packet)
  | fatal
deriving DecidableEq, Repr

/-- The four things the host can do (45_host_control.md R145). -/
inductive HostAction where
  | cfgWr (num : BitVec 4) (value : BitVec 32)
  | cfgRd (num : BitVec 4)
  | start (netOk : Bool)
  | reset
deriving DecidableEq, Repr

/-- A call of an environment primitive that was answered (00_scope.md R8), for the model's record. -/
inductive Call where
  /-- `BusRead()` answered. -/
  | busRead
  /-- `NetPoll()` with its answer. -/
  | netPoll (answer : Option (List Byte))
  /-- `TimerWait(T)` returned, after at least `T`. -/
  | timerWait (atLeast : Nat)
deriving DecidableEq, Repr

/-- Why a step stops. All but `halted` mark states no run reaches (log entry 8). -/
inductive Fault where
  /-- Raised by `step` in phase HALT when the host makes no move: no step of the core is enabled
  (60_exceptions.md R161). Safe. -/
  | halted
  /-- Raised by PKT.RD and PKT.ACCEPT when `pos` is 60 or more: `pktbuf` has no such packet slot
  (10_state.md R13). Safe: no run reaches it. -/
  | posOutOfRange
  /-- Raised by PKT.DESYNC when `resets + 1` does not fit 10 bits (10_state.md R15, 00_scope.md R8).
  Safe: no run reaches it. -/
  | registerOverflow
  /-- Raised by RSM.STORE_HR when `segId` is not in 1 .. 4: the shelf has no such slot
  (20_memory.md R42). Safe: no run reaches it. -/
  | noShelfSlot
  /-- Raised by PAL.MAP when `CFG_PALETTE` is the reserved 3: there is no such ROM (10_state.md R23).
  Safe: no run reaches it. -/
  | noPalette
  /-- Raised by PAL.MAP when `diff` is 0, outside its range 1 .. 65535 (10_state.md R19).
  Safe: no run reaches it. -/
  | zeroDiff
deriving DecidableEq, Repr

/-- Why the model gives an instruction no meaning. -/
inductive Refusal where
  /-- Raised by `exec` for an operation without a meaning; no operation of this model is. Safe. -/
  | notModelled (mnemonic : String)
deriving DecidableEq, Repr

/-- The machine. The first group is the architectural state of 10_state.md R11, then the parameter
record (log entry 1), the environment's pending answers (log entry 2) and the model's records
(log entry 5). -/
structure State where
  /-- With `pos` the core's program counter (10_state.md R12, R14). -/
  phase : Phase
  /-- The position expected next (10_state.md R13). -/
  pos : BitVec 6
  /-- Desyncs since last cleared (10_state.md R15). -/
  resets : BitVec 10
  /-- The segment identifier of this pass, 0 for none (10_state.md R16). -/
  segId : BitVec 4
  /-- Invalid segments counted, modulo 65536 (10_state.md R17). -/
  invalidSegCount : BitVec 16
  /-- `min` (10_state.md R18). -/
  rangeMin : BitVec 16
  /-- `max` (10_state.md R18). -/
  rangeMax : BitVec 16
  /-- The denominator of the scale (10_state.md R19). -/
  diff : BitVec 16
  /-- The bus handle is open (10_state.md R20). -/
  busOpen : Bool
  /-- Socket set-up failed (10_state.md R20). -/
  netDegraded : Bool
  /-- The last frame's range was degenerate (10_state.md R20). -/
  rangeDegenerate : Bool
  /-- Register 0 (10_state.md R22). -/
  cfgVariant : BitVec 1
  /-- Register 1 (10_state.md R23). -/
  cfgPalette : BitVec 2
  /-- Register 2: bit 0 `autoMin`, bit 1 `autoMax` (10_state.md R24). -/
  cfgAuto : BitVec 2
  /-- Register 3 (10_state.md R25). -/
  cfgMin : BitVec 16
  /-- Register 4 (10_state.md R25). -/
  cfgMax : BitVec 16
  /-- Register 5 (10_state.md R26). -/
  cfgBusClock : BitVec 32
  /-- Register 6 (10_state.md R27). -/
  cfgLogLevel : BitVec 8
  /-- The packets of the pass by byte address, an unlisted byte is 0 (20_memory.md R41; log entry 4). -/
  pktbuf : Mem Byte
  /-- The four slots by byte address, an unlisted byte is 0 (20_memory.md R42). -/
  shelf : Vector (Mem Byte) 4
  /-- The cells by index `160*r + c`, an unlisted cell is 0 (20_memory.md R44). -/
  grid : Mem Sample
  /-- The pixels by index `WIDTH*r + c`, an unlisted pixel is black (20_memory.md R45). -/
  preview : Mem Pixel
  /-- The parameters of the run; no step writes them (20_memory.md R55). -/
  params : Params
  /-- What `BusRead()` will answer, next first; empty while the bus has nothing to deliver. -/
  busIn : List BusAnswer
  /-- What `NetPoll()` will answer, next first; empty answers `None`. -/
  pollIn : List (Option (List Byte))
  /-- The host's moves, one for each step, `none` leaves the step to the core. -/
  hostIn : List (Option HostAction)
  /-- The output trace, oldest first (00_scope.md R8). -/
  trace : List Event
  /-- The causes raised, oldest first (60_exceptions.md R155). -/
  causes : List Cause
  /-- The environment calls answered, oldest first. -/
  calls : List Call
  /-- The values returned by `CFG.RD`, oldest first (45_host_control.md R148). -/
  replies : List (BitVec 32)
deriving DecidableEq, Repr

/-- The machine after reset with given parameters: 10_state.md R30 and R21, nothing pending and
nothing recorded. -/
def State.resetWith (p : Params) : State where
  phase := .idle
  pos := 0
  resets := 0
  segId := 0
  invalidSegCount := 0
  rangeMin := 0
  rangeMax := 65535
  diff := 65535
  busOpen := false
  netDegraded := false
  rangeDegenerate := false
  cfgVariant := 0
  cfgPalette := 0
  cfgAuto := 3
  cfgMin := 0
  cfgMax := 65535
  cfgBusClock := p.busClockDefault
  cfgLogLevel := 0
  pktbuf := []
  shelf := Vector.replicate 4 []
  grid := []
  preview := []
  params := p
  busIn := []
  pollIn := []
  hostIn := []
  trace := []
  causes := []
  calls := []
  replies := []

/-- The machine right after reset (10_state.md R30), its parameters open. -/
def State.reset : State := State.resetWith Config.params

end Sys2Proof.Machine
end

