-- ==== Sys2Proof/Machine/Ops.lean ====
section
/-! DEFINITION. The named operations over memories, the environment's primitives, the model's records
and the recognition of an error condition. -/

namespace Sys2Proof.Machine

/-- The result of a step. -/
abbrev Result := Host.Outcome State Fault Refusal

/-- Goes on with `f` if the first half of a step answered a next state. -/
def andThen (r : Result) (f : State → Result) : Result :=
  match r with
  | .next s => f s
  | .fault e => .fault e
  | .refused e => .refused e

/-! ### Memories (20_memory.md R52: a read gives the latest write or the reset value) -/

/-- The value at an index, `d` where nothing is listed. -/
def readAt {α : Type} (d : α) : Mem α → Nat → α
  | [], _ => d
  | (a, v) :: t, x => if a = x then v else readAt d t x

/-- Puts an entry before the first larger index. -/
def insertCell {α : Type} (x : Nat) (v : α) : Mem α → Mem α
  | [] => [(x, v)]
  | (a, w) :: t => if x < a then (x, v) :: (a, w) :: t else (a, w) :: insertCell x v t

/-- Writes one value; writing the value an unlisted index reads as lists nothing. -/
def writeAt {α : Type} [DecidableEq α] (d : α) (m : Mem α) (x : Nat) (v : α) : Mem α :=
  let rest := m.filter fun c => c.1 ≠ x
  if v = d then rest else insertCell x v rest

/-- Writes values to consecutive indices from `x` on, in order. -/
def writeFrom {α : Type} [DecidableEq α] (d : α) : Mem α → Nat → List α → Mem α
  | m, _, [] => m
  | m, x, v :: vs => writeFrom d (writeAt d m x v) (x + 1) vs

/-- The entries below `n`: what a copy of the indices 0 .. `n - 1` takes. -/
def below {α : Type} (n : Nat) (m : Mem α) : Mem α := m.filter fun c => c.1 < n

/-- The canonical form of a memory of `n` places: indices rising and below `n`, no entry equal to
what an unlisted index reads as. -/
def memWf {α : Type} [DecidableEq α] (d : α) (n : Nat) (m : Mem α) : Bool :=
  decide (m.Pairwise fun c c' => c.1 < c'.1) && m.all fun c => decide (c.1 < n ∧ c.2 ≠ d)

/-- Slot `k` of the shelf (20_memory.md R42). -/
def State.slot (s : State) (k : Nat) : Mem Byte := s.shelf[k]?.getD []

/-- Copies `pktbuf` whole into shelf slot `k` (0 .. 3): every byte 0 .. 9839 of the slot is replaced,
nothing of its earlier content remains (20_memory.md R49). -/
def storeSegment (k : Nat) (s : State) : State :=
  { s with shelf := s.shelf.setIfInBounds k (below Config.segmentBytes s.pktbuf) }

/-- Puts the 164 bytes of a packet into the slot of `pktbuf` that `pos` names (20_memory.md R41). -/
def storePacket (p : Packet) (s : State) : State :=
  { s with pktbuf := writeFrom 0 s.pktbuf (Config.packetSize * s.pos.toNat) p.toList }

/-- The header bits of a packet as delivered by the bus read (30_encoding.md R61, R73). -/
def packetHeader (p : Packet) : BitVec 32 := header p[0] p[1] p[2] p[3]

/-- The header bits of packet slot `n` of `pktbuf` (30_encoding.md R63); of the slot just stored they
are the packet's. -/
def headerAt (m : Mem Byte) (n : Nat) : BitVec 32 :=
  let byte (b : Nat) := readAt 0 m (Config.packetSize * n + b)
  header (byte 0) (byte 1) (byte 2) (byte 3)

/-! ### Output events, records, error conditions -/

/-- `emit E(args)` (00_scope.md R8). -/
def emit (e : Event) (s : State) : State := { s with trace := s.trace ++ [e] }

/-- `raise <Cause>`: marks where an error condition is recognised; nothing is saved for a return and
no handler runs, the handling is the transition the same rule writes (60_exceptions.md R155, R164). -/
def raiseCause (c : Cause) (s : State) : State := { s with causes := s.causes ++ [c] }

/-- Records an answered environment call (log entry 5). -/
def logCall (c : Call) (s : State) : State := { s with calls := s.calls ++ [c] }

/-- Moves the sequencer to a phase. -/
def goto (p : Phase) (s : State) : State := { s with phase := p }

/-- `TimerWait(T)`: a one-shot delay of at least `t`, which always ends (60_exceptions.md R167). -/
def timerWait (t : Nat) (s : State) : State := logCall (.timerWait t) s

/-- `NetPoll()`: takes at most one datagram (30_encoding.md R65). -/
def netPoll (s : State) : Option (List Byte) × State :=
  match s.pollIn with
  | [] => (none, logCall (.netPoll none) s)
  | a :: rest => (a, logCall (.netPoll a) { s with pollIn := rest })

/-- `CMD.POLL` as the sub-operation every poll point runs (44_publisher.md R135). -/
def pollCommand (s : State) : State :=
  match netPoll s with
  | (none, t) => t
  | (some payload, t) =>
    if hasToken t.params.cmdMaxLen payload then emit .sensorCalibrate t else t

end Sys2Proof.Machine
end

