-- ==== Sys2Proof/Machine/Flags.lean ====
section
/-! DEFINITION. The status byte and the degenerate-range flag (10_state.md R20, 42_range_tracker.md R118). -/

namespace Sys2Proof.Machine

/-- Run mode: every phase but IDLE and HALT (60_exceptions.md R166). -/
def Phase.running (p : Phase) : Bool := p ≠ .idle && p ≠ .halt

/-- Status number 8, `STATUS`: bit 0 running, bit 1 halted, bit 2 `netDegraded`, bit 3
`rangeDegenerate`, bit 4 `busOpen`, bits 7:5 zero (10_state.md R20). -/
def statusByte (s : State) : BitVec 8 :=
  BitVec.ofNat 8 (s.phase.running.toNat + 2 * (decide (s.phase = .halt)).toNat
    + 4 * s.netDegraded.toNat + 8 * s.rangeDegenerate.toNat + 16 * s.busOpen.toNat)

/-- `max - min` as a mathematical integer, -65535 .. 65535 (42_range_tracker.md R119). -/
def rangeWidth (lo hi : BitVec 16) : Int := (hi.toNat : Int) - lo.toNat

/-- The degenerate-range test (42_range_tracker.md R118). -/
def degenerate (lo hi : BitVec 16) : Bool := rangeWidth lo hi < 1

/-- `max(1, max - min)` (10_state.md R19). -/
def clampedDiff (lo hi : BitVec 16) : BitVec 16 :=
  if degenerate lo hi then 1 else BitVec.ofNat 16 (rangeWidth lo hi).toNat

end Sys2Proof.Machine
end

