-- ==== Sys2Proof/Machine/Operands.lean ====
section
/-! DEFINITION. The operand forms: host registers by number, samples and their positions, the samples of a
frame, palette offsets and pixels, the bytes of the raw datagram. -/

namespace Sys2Proof.Machine

/-! ### Host registers (10_state.md R21) -/

/-- `SEQ_STATE`: `phase` in bits 9:6, `pos` in bits 5:0. -/
def seqState (s : State) : BitVec 10 := BitVec.ofNat 10 (s.phase.code.toNat * 64 + s.pos.toNat)

/-- The register of a number, zero-extended to 32 bits; reserved numbers read 0
(45_host_control.md R148). -/
def readReg (num : BitVec 4) (s : State) : BitVec 32 :=
  match num.toNat with
  | 0 => s.cfgVariant.setWidth 32
  | 1 => s.cfgPalette.setWidth 32
  | 2 => s.cfgAuto.setWidth 32
  | 3 => s.cfgMin.setWidth 32
  | 4 => s.cfgMax.setWidth 32
  | 5 => s.cfgBusClock
  | 6 => s.cfgLogLevel.setWidth 32
  | 8 => (statusByte s).setWidth 32
  | 9 => s.resets.setWidth 32
  | 10 => s.invalidSegCount.setWidth 32
  | 11 => s.rangeMin.setWidth 32
  | 12 => s.rangeMax.setWidth 32
  | 13 => (seqState s).setWidth 32
  | _ => 0

/-- Writes the low bits of `value` to a configuration register; palette code 3 is refused, reserved
and read-only numbers take nothing (45_host_control.md R146). -/
def writeReg (num : BitVec 4) (value : BitVec 32) (s : State) : State :=
  match num.toNat with
  | 0 => { s with cfgVariant := value.setWidth 1 }
  | 1 => if value.setWidth 2 ≠ 3#2 then { s with cfgPalette := value.setWidth 2 } else s
  | 2 => { s with cfgAuto := value.setWidth 2 }
  | 3 => { s with cfgMin := value.setWidth 16 }
  | 4 => { s with cfgMax := value.setWidth 16 }
  | 5 => { s with cfgBusClock := value }
  | 6 => { s with cfgLogLevel := value.setWidth 8 }
  | _ => s

/-- `autoMin`, bit 0 of `CFG_AUTO` (10_state.md R24). -/
def autoMin (s : State) : Bool := s.cfgAuto.getLsbD 0

/-- `autoMax`, bit 1 of `CFG_AUTO` (10_state.md R24). -/
def autoMax (s : State) : Bool := s.cfgAuto.getLsbD 1

/-! ### Samples -/

/-- Sample position `i` of a slot, big-endian (20_memory.md R43). -/
def sampleAt (m : Mem Byte) (i : Nat) : Sample :=
  BitVec.ofNat 16 ((readAt 0 m (2 * i)).toNat * 256 + (readAt 0 m (2 * i + 1)).toNat)

/-- The destination of sample position `i` of slot `k` (41_reassembler.md R105; log entry 11). -/
def positionOf (i k : Nat) (variant : BitVec 1) : Nat × Nat :=
  let p := i / Config.packetWords
  let w := i % Config.packetWords
  if variant = 0 then (p, w - 2)
  else (p / 2 + Config.rowStridePerSeg * k, w - 2 + 80 * (p % 2))

/-- The bounds test against the active resolution (20_memory.md R50). -/
def inBounds (variant : BitVec 1) (rc : Nat × Nat) : Bool :=
  rc.1 < Config.height variant && rc.2 < Config.width variant

/-- The linear index of a grid cell, stride 160 in both variants (20_memory.md R44). -/
def gridIndex (rc : Nat × Nat) : Nat := Config.gridWidth * rc.1 + rc.2

/-- The linear index of a preview pixel (20_memory.md R45). -/
def previewIndex (variant : BitVec 1) (rc : Nat × Nat) : Nat := Config.width variant * rc.1 + rc.2

/-- A non-zero sample of a frame with its slot and sample position. -/
structure FrameSample where
  slot : Nat
  index : Nat
  value : Sample
deriving DecidableEq, Repr

/-- The sample positions of a segment that are not header words, ascending (20_memory.md R42). -/
def payloadPositions : List Nat :=
  (List.range Config.segmentWords).filter fun i => Config.headerWords ≤ i % Config.packetWords

/-- The sample of a position, unless it is the no-data sentinel 0. -/
def frameSample (s : State) (k i : Nat) : Option FrameSample :=
  let v := sampleAt (s.slot k) i
  if v = 0 then none else some ⟨k, i, v⟩

/-- The loop that extraction, range scan and mapping share: slots 0 .. `SEG_COUNT`-1, in each the
payload positions in order, zero samples skipped (41_reassembler.md R106). -/
def frameSamples (s : State) : List FrameSample :=
  (List.range (Config.segCount s.cfgVariant)).flatMap fun k =>
    payloadPositions.filterMap (frameSample s k)

/-! ### Palette and pixels (43_palette_mapper.md) -/

/-- The palette ROM of a select; 3 is reserved (10_state.md R23). -/
def selectPalette (p : Params) (sel : BitVec 2) : Option Palette :=
  match sel.toNat with
  | 0 => some p.ironblack
  | 1 => some p.rainbow
  | 2 => some p.grayscale
  | _ => none

/-- `clamp(v, lo, hi) = max(lo, min(v, hi))` (00_scope.md R8). -/
def clamp (v lo hi : Int) : Int := max lo (min v hi)

/-- `sv`: the exact rational `(v - min) * 255 / diff` floored; for `diff >= 1` the integer quotient
is the floor (43_palette_mapper.md R127; log entry 12). -/
def scaledValue (lo d v : BitVec 16) : Int :=
  ((v.toNat : Int) - lo.toNat) * Config.scaleNum / d.toNat

/-- One channel: the offset clamped on its own to [0, PAL_LEN - 1], then the ROM read
(43_palette_mapper.md R126). -/
def channel (p : Palette) (offset : Int) : Byte :=
  p.entries.getD (clamp offset 0 ((p.len : Int) - 1)).toNat 0

/-- The pixel of a sample (43_palette_mapper.md R126). -/
def pixelOf (p : Palette) (lo d v : BitVec 16) : Pixel :=
  let sv := scaledValue lo d v
  ⟨channel p (3 * sv), channel p (3 * sv + 1), channel p (3 * sv + 2)⟩

/-! ### The raw datagram (30_encoding.md R66) -/

/-- The two bytes of a cell in the datagram's byte order. -/
def cellBytes (bigEndian : Bool) (c : Sample) : List Byte :=
  let high : Byte := BitVec.ofNat 8 (c.toNat / 256)
  let low : Byte := BitVec.ofNat 8 (c.toNat % 256)
  if bigEndian then [high, low] else [low, high]

/-- The 38400 payload bytes: every cell in row-major order. -/
def rawPayload (bigEndian : Bool) (grid : Mem Sample) : List Byte :=
  (List.range Config.gridCells).flatMap fun n => cellBytes bigEndian (readAt 0 grid n)

/-- The pixels of the active resolution in row-major order (30_encoding.md R67). -/
def previewPixels (variant : BitVec 1) (m : Mem Pixel) : List Pixel :=
  (List.range (Config.width variant * Config.height variant)).map (readAt Pixel.black m)

end Sys2Proof.Machine
end

