-- ==== Sys2Proof/Machine/HostControl.lean ====
section
/-! DEFINITION. The host's operations: CFG.WR, CFG.RD, START, RESET (45_host_control.md, 70_reset_and_hazards.md). -/

namespace Sys2Proof.Machine

/-- `CFG.WR(num, value)`: effective only in IDLE, refused silently otherwise (45_host_control.md R146). -/
def execCfgWr (num : BitVec 4) (value : BitVec 32) (s : State) : Result :=
  if s.phase ≠ .idle then .next s else .next (writeReg num value s)

/-- `CFG.RD(num)`: returns the register to the host, in any phase; no state of the core changes
(45_host_control.md R148). -/
def execCfgRd (num : BitVec 4) (s : State) : Result :=
  .next { s with replies := s.replies ++ [readReg num s] }

/-- `START(netOk)`: effective only in IDLE (45_host_control.md R147). -/
def execStart (netOk : Bool) (s : State) : Result :=
  if s.phase ≠ .idle then .next s
  else
    let s := if netOk then s else raiseCause .netSetupFailure s
    let s := { s with netDegraded := !netOk, rangeMin := s.cfgMin, rangeMax := s.cfgMax }
    let s := emit (.busOpen s.params.busId s.cfgBusClock) s
    .next (goto .attBegin { s with busOpen := true })

/-- `RESET`: every register, flag and memory takes its reset value and the model's records start
empty; no event. What the environment has yet to answer is not the core's and stays
(70_reset_and_hazards.md R180; log entry 2). -/
def execReset (s : State) : Result :=
  .next { State.resetWith s.params with busIn := s.busIn, pollIn := s.pollIn, hostIn := s.hostIn }

end Sys2Proof.Machine
end

