-- ==== Sys2Proof/Machine/PaletteMapper.lean ====
section
/-! DEFINITION. The PaletteMapper: PAL.MAP (43_palette_mapper.md). -/

namespace Sys2Proof.Machine

/-- Writes the pixel of one sample if it lies in the active resolution (43_palette_mapper.md R126). -/
def mapSample (p : Palette) (s : State) (preview : Mem Pixel) (x : FrameSample) : Mem Pixel :=
  let rc := positionOf x.index x.slot s.cfgVariant
  if inBounds s.cfgVariant rc then
    writeAt Pixel.black preview (previewIndex s.cfgVariant rc) (pixelOf p s.rangeMin s.diff x.value)
  else preview

/-- `PAL.MAP`: a pixel for every non-zero sample of the frame's slots, the preview not cleared
(43_palette_mapper.md R126). The reserved palette select and a zero `diff`, which no run reaches,
fault. -/
def execPalMap (s : State) : Result :=
  match selectPalette s.params s.cfgPalette with
  | none => .fault .noPalette
  | some p =>
    if s.diff = 0 then .fault .zeroDiff
    else .next (goto .pubRaw { s with preview := (frameSamples s).foldl (mapSample p s) s.preview })

end Sys2Proof.Machine
end

