-- ==== Sys2Proof/Machine/Publisher.lean ====
section
/-! DEFINITION. The FramePublisher: CMD.POLL, PUB.RAW, PUB.PREVIEW, PUB.POLL (44_publisher.md). -/

namespace Sys2Proof.Machine

/-- `CMD.POLL` (44_publisher.md R135). -/
def execCmdPoll (s : State) : Result := .next (pollCommand s)

/-- `PUB.RAW`: the whole grid as one datagram (44_publisher.md R136). -/
def execPubRaw (s : State) : Result :=
  .next (goto .pubPreview (emit (.netSend (rawPayload s.params.outBigEndian s.grid)) s))

/-- `PUB.PREVIEW`: a copy of the preview in row-major order (44_publisher.md R137). -/
def execPubPreview (s : State) : Result :=
  .next (goto .pubPoll (emit (.previewFrame (Config.width s.cfgVariant) (Config.height s.cfgVariant)
    (previewPixels s.cfgVariant s.preview)) s))

/-- `PUB.POLL` (44_publisher.md R138). -/
def execPubPoll (s : State) : Result := .next (goto .attBegin (pollCommand s))

end Sys2Proof.Machine
end

