-- ==== Sys2Proof/Machine/RangeTracker.lean ====
section
/-! DEFINITION. The RangeTracker: RNG.HOLD, RNG.SCAN, RNG.SCALE (42_range_tracker.md). -/

namespace Sys2Proof.Machine

/-- `RNG.HOLD`: neither bound is written (42_range_tracker.md R116). -/
def execRngHold (s : State) : Result := .next s

/-- The running maximum from 0 (42_range_tracker.md R117). -/
def runningMax (xs : List FrameSample) : BitVec 16 :=
  xs.foldl (fun m x => if m < x.value then x.value else m) 0

/-- The running minimum from 65535 (42_range_tracker.md R117). -/
def runningMin (xs : List FrameSample) : BitVec 16 :=
  xs.foldl (fun m x => if x.value < m then x.value else m) 65535

/-- `RNG.SCAN`: each automatic bound afresh from this frame's non-zero samples, the other kept
(42_range_tracker.md R117). -/
def execRngScan (s : State) : Result :=
  .next { s with
    rangeMax := if autoMax s then runningMax (frameSamples s) else s.rangeMax
    rangeMin := if autoMin s then runningMin (frameSamples s) else s.rangeMin }

/-- `RNG.SCALE`: the clamped denominator and its flag (42_range_tracker.md R118). -/
def execRngScale (s : State) : Result :=
  let d := degenerate s.rangeMin s.rangeMax
  let s := if d then raiseCause .degenerateRange s else s
  .next (goto .map { s with rangeDegenerate := d, diff := clampedDiff s.rangeMin s.rangeMax })

end Sys2Proof.Machine
end

