-- ==== Sys2Proof/Machine/Reassembler.lean ====
section
/-! DEFINITION. The FrameReassembler: the three segment stores, RSM.INVALID, RSM.EXTRACT (41_reassembler.md). -/

namespace Sys2Proof.Machine

/-- `RSM.STORE_LR`: slot 0, a frame is always ready (41_reassembler.md R101). -/
def execRsmStoreLr (s : State) : Result := .next (goto .extract (storeSegment 0 s))

/-- `RSM.STORE_HR`: slot `segId - 1`, no frame (41_reassembler.md R102). A `segId` that names no slot,
which no run reaches, faults. -/
def execRsmStoreHr (s : State) : Result :=
  if segValid s.segId then .next (goto .attBegin (storeSegment (s.segId.toNat - 1) s))
  else .fault .noShelfSlot

/-- `RSM.STORE_HR4`: slot 3, a frame is ready whatever the other slots hold (41_reassembler.md R103). -/
def execRsmStoreHr4 (s : State) : Result := .next (goto .extract (storeSegment 3 s))

/-- `RSM.INVALID`: counted modulo 65536, the shelf untouched (41_reassembler.md R104). -/
def execRsmInvalid (s : State) : Result :=
  .next (goto .attBegin { s with invalidSegCount := s.invalidSegCount + 1 })

/-- Writes one sample to its cell if that lies in the active resolution (41_reassembler.md R106). -/
def extractSample (variant : BitVec 1) (grid : Mem Sample) (x : FrameSample) : Mem Sample :=
  let rc := positionOf x.index x.slot variant
  if inBounds variant rc then writeAt 0 grid (gridIndex rc) x.value else grid

/-- `RSM.EXTRACT`: every non-zero sample of the frame's slots into the grid, which is not cleared
(41_reassembler.md R106). -/
def execRsmExtract (s : State) : Result :=
  .next (goto .range { s with grid := (frameSamples s).foldl (extractSample s.cfgVariant) s.grid })

end Sys2Proof.Machine
end

