-- ==== Sys2Proof/Machine/Synchronizer.lean ====
section
/-! DEFINITION. The PacketSynchronizer: ATT.BEGIN, PKT.RD with the five packet operations, SYN.BACKOFF and
the link recovery (40_synchronizer.md). -/

namespace Sys2Proof.Machine

/-- `ATT.BEGIN` (40_synchronizer.md R81). -/
def execAttBegin (s : State) : Result :=
  .next (goto .seek (pollCommand { s with pos := 0, resets := 0, segId := 0 }))

/-- `PKT.ACCEPT`: the next position, a poll after the 20th, 40th and 60th packet, the pass complete
at 60 (40_synchronizer.md R83). A `pos` of 60 or more, which no run reaches, faults. -/
def execPktAccept (s : State) : Result :=
  if Config.packetsPerFrame ≤ s.pos.toNat then .fault .posOutOfRange
  else
    let s := { s with pos := s.pos + 1 }
    let s := if s.pos.toNat % Config.pollPeriod = 0 then pollCommand s else s
    .next (goto (if s.pos.toNat = Config.packetsPerFrame then .reasm else .seek) s)

/-- `PKT.SEGOK` (40_synchronizer.md R84). -/
def execPktSegok (seg : BitVec 4) (s : State) : Result :=
  .next (goto .seek { s with segId := seg, pos := 21 })

/-- `PKT.SEGBAD`: the pass ends early, `pos` stays (40_synchronizer.md R85). -/
def execPktSegbad (seg : BitVec 4) (s : State) : Result :=
  .next (goto .reasm (raiseCause .invalidSegment { s with segId := seg }))

/-- `PKT.DESYNC`: progress discarded, back to position 0 (40_synchronizer.md R86). A count that does
not fit the register, which no run reaches, faults. -/
def execPktDesync (s : State) : Result :=
  if s.resets.toNat + 1 < 2 ^ 10 then
    .next (goto .backoff { raiseCause .transientDesync s with
      pos := 0, segId := 0, resets := s.resets + 1 })
  else .fault .registerOverflow

/-- `PKT.FATAL`: all else keeps its value (40_synchronizer.md R87). -/
def execPktFatal (s : State) : Result := .next (goto .halt (raiseCause .busFatal s))

/-- The effect of the packet operation the decoder selected. -/
def runPacketOp (op : PacketOp) (s : State) : Result :=
  match op with
  | .accept => execPktAccept s
  | .segok seg => execPktSegok seg s
  | .segbad seg => execPktSegbad seg s
  | .desync => execPktDesync s
  | .fatal => execPktFatal s

/-- `PKT.RD`: one `BusRead`, the packet stored before it is checked, then the operation that
30_encoding.md R62 selects, in the same step (40_synchronizer.md R80, R82). While the bus has
nothing to deliver the core waits: the state stays (log entry 9). A `pos` of 60 or more, which no
run reaches, has no packet slot and faults. -/
def execPktRd (s : State) : Result :=
  match s.busIn with
  | [] => .next s
  | .fatal :: rest =>
    runPacketOp (decodePacket none s.pos s.cfgVariant) (logCall .busRead { s with busIn := rest })
  | .packet p :: rest =>
    if Config.packetsPerFrame ≤ s.pos.toNat then .fault .posOutOfRange
    else
      runPacketOp (decodePacket (some (packetHeader p)) s.pos s.cfgVariant)
        (storePacket p (logCall .busRead { s with busIn := rest }))

/-- `SYN.BACKOFF`: the wait, then the threshold test (40_synchronizer.md R88). -/
def execSynBackoff (s : State) : Result :=
  let s := timerWait s.params.backoffTime s
  if s.resets.toNat = Config.resetThreshold then
    .next (goto .rbtClose (raiseCause .persistentDesync s))
  else .next (goto .seek s)

/-- `RBT.CLOSE` (40_synchronizer.md R89). -/
def execRbtClose (s : State) : Result :=
  .next (goto .rbtReboot { emit (.busClose s.params.busId) s with busOpen := false })

/-- `RBT.REBOOT` (40_synchronizer.md R90). -/
def execRbtReboot (s : State) : Result :=
  .next (goto .rbtWarm { emit .sensorReboot s with resets := 0, invalidSegCount := 0 })

/-- `RBT.WARM` (40_synchronizer.md R91). -/
def execRbtWarm (s : State) : Result := .next (goto .rbtOpen (timerWait s.params.warmupTime s))

/-- `RBT.OPEN`: the same pass goes on (40_synchronizer.md R92). -/
def execRbtOpen (s : State) : Result :=
  .next (goto .seek { emit (.busOpen s.params.busId s.cfgBusClock) s with busOpen := true })

end Sys2Proof.Machine
end

