-- ==== Sys2Proof/Machine/Dispatch.lean ====
section
/-! DEFINITION. The dispatch of an operation to its meaning, one arm for each constructor of Instr. -/

namespace Sys2Proof.Machine

def exec (i : Instr) (s : State) : Host.Outcome State Fault Refusal :=
  match i with
  | .cfgWr num value => Sys2Proof.Machine.execCfgWr num value s
  | .cfgRd num => Sys2Proof.Machine.execCfgRd num s
  | .start netOk => Sys2Proof.Machine.execStart netOk s
  | .reset => Sys2Proof.Machine.execReset s
  | .attBegin => Sys2Proof.Machine.execAttBegin s
  | .pktRd => Sys2Proof.Machine.execPktRd s
  | .pktAccept => Sys2Proof.Machine.execPktAccept s
  | .pktSegok seg => Sys2Proof.Machine.execPktSegok seg s
  | .pktSegbad seg => Sys2Proof.Machine.execPktSegbad seg s
  | .pktDesync => Sys2Proof.Machine.execPktDesync s
  | .pktFatal => Sys2Proof.Machine.execPktFatal s
  | .synBackoff => Sys2Proof.Machine.execSynBackoff s
  | .rbtClose => Sys2Proof.Machine.execRbtClose s
  | .rbtReboot => Sys2Proof.Machine.execRbtReboot s
  | .rbtWarm => Sys2Proof.Machine.execRbtWarm s
  | .rbtOpen => Sys2Proof.Machine.execRbtOpen s
  | .rsmStoreLr => Sys2Proof.Machine.execRsmStoreLr s
  | .rsmStoreHr => Sys2Proof.Machine.execRsmStoreHr s
  | .rsmStoreHr4 => Sys2Proof.Machine.execRsmStoreHr4 s
  | .rsmInvalid => Sys2Proof.Machine.execRsmInvalid s
  | .rsmExtract => Sys2Proof.Machine.execRsmExtract s
  | .rngHold => Sys2Proof.Machine.execRngHold s
  | .rngScan => Sys2Proof.Machine.execRngScan s
  | .rngScale => Sys2Proof.Machine.execRngScale s
  | .palMap => Sys2Proof.Machine.execPalMap s
  | .pubRaw => Sys2Proof.Machine.execPubRaw s
  | .pubPreview => Sys2Proof.Machine.execPubPreview s
  | .pubPoll => Sys2Proof.Machine.execPubPoll s
  | .cmdPoll => Sys2Proof.Machine.execCmdPoll s

end Sys2Proof.Machine
end

