-- ==== Sys2Proof/Machine/Sequencer.lean ====
section
/-! DEFINITION. The sequencer: which operation the next step executes, and the placing of a selector where
the step will find it (10_state.md R12, 30_encoding.md R70). -/

namespace Sys2Proof.Machine

/-- What the sequencer looks at for the first or second half of a core step (30_encoding.md R70, R73). -/
def phaseSelector (s : State) (half : Half) : Selector :=
  .phase s.phase.code s.cfgVariant s.segId s.cfgAuto half

/-- The operation of a host action (30_encoding.md R73). -/
def HostAction.instr : HostAction → Instr
  | .cfgWr num value => .cfgWr num value
  | .cfgRd num => .cfgRd num
  | .start netOk => .start netOk
  | .reset => .reset

/-- A step of the core by itself: the selected operation, and in phase RANGE the second half after it
(42_range_tracker.md R115). In IDLE the core waits for the host (70_reset_and_hazards.md R181); in
HALT no step is enabled, which the model treats as a fault outcome (60_exceptions.md R161; log
entry 9). -/
def coreStep (s : State) : Result :=
  match decode (phaseSelector s .first), decode (phaseSelector s .second) with
  | .ok i, .ok j => andThen (exec i s) (exec j)
  | .ok i, .error _ => exec i s
  | .error .halt, _ => .fault .halted
  | .error _, _ => .next s

/-- One step: the host's move if it makes one now, else the core's (45_host_control.md R145; log
entry 2). -/
def nextStep (s : State) : Result :=
  match s.hostIn with
  | some a :: rest => exec a.instr { s with hostIn := rest }
  | none :: rest => coreStep { s with hostIn := rest }
  | [] => coreStep s

/-- A packet with the given header bits and payload samples all zero. -/
def packetOf (h : BitVec 32) : Packet :=
  ⟨⟨[headerByte h 0, headerByte h 1, headerByte h 2, headerByte h 3] ++ List.replicate 160 0⟩,
    by simp only [List.size_toArray, List.length_append, List.length_cons, List.length_nil,
      List.length_replicate]⟩

/-- The host leaves the next step to the core. -/
def yieldHost (s : State) : State := { s with hostIn := none :: s.hostIn }

/-- Puts a selector where the next step looks for it, with what that step needs to run the operation
it selects: a packet to read for PKT.RD, the conditions of the rows that share a phase code, the
poll of PUB.POLL for a datagram window (log entry 7). -/
def place (sel : Selector) (s : State) : State :=
  match sel with
  | .host ha num value netOk =>
    let a : HostAction :=
      match ha.toNat with
      | 0 => .cfgWr num value
      | 1 => .cfgRd num
      | 2 => .start netOk
      | _ => .reset
    { s with hostIn := some a :: s.hostIn }
  | .phase code variant segId auto _ =>
    let s := goto (Phase.ofCode code) (yieldHost s)
    match code.toNat with
    | 2 => if s.busIn = [] then { s with busIn := [.packet (packetOf 0)] } else s
    | 8 => { s with cfgVariant := variant, segId := segId }
    | 10 => { s with cfgAuto := auto }
    | _ => s
  | .packet answer pos variant =>
    let a : BusAnswer :=
      match answer with
      | some h => .packet (packetOf h)
      | none => .fatal
    goto .seek { yieldHost s with busIn := a :: s.busIn, pos := pos, cfgVariant := variant }
  | .window bits =>
    goto .pubPoll { yieldHost s with
      pollIn := some [BitVec.ofNat 8 (bits.toNat / 2 ^ 16), BitVec.ofNat 8 (bits.toNat / 2 ^ 8),
        BitVec.ofNat 8 bits.toNat] :: s.pollIn }

/-- The selector of a table word, placed; a word that stands for none changes nothing. -/
def placeTableWord (s : State) (nbits w : Nat) : State :=
  match tableSelector nbits w with
  | some sel => place sel s
  | none => s

end Sys2Proof.Machine
end

