-- ==== Sys2Proof/Machine/Step.lean ====
section
/-! DEFINITION. The step function and the host's way to place an operation for the next step. -/

namespace Sys2Proof.Machine

/-- One step of the machine (00_scope.md R2, R6). -/
def step (s : State) : Host.Outcome State Fault Refusal := nextStep s

/-- `s` with the operation of a table word placed so that the next step runs it (log entry 19). -/
def State.withFetchWord (s : State) (nbits w : Nat) : State := placeTableWord s nbits w

end Sys2Proof.Machine
end

