-- ==== Sys2Proof/Safety.lean ====
section
/-! DEFINITION. What counts as a safe run: the phase graph and the invariants the spec's prose states of the
whole machine, in the terms the statements use. -/

namespace Sys2Proof.Machine

/-! ### Terms of the statements -/

/-- The answer of the next poll (30_encoding.md R65, R72). -/
def pollAnswer (s : State) : Option (List Byte) := s.pollIn.head?.join

/-- The events a poll emits: one calibration if the datagram holds the token (44_publisher.md R135). -/
def polledEvents (s : State) : List Event :=
  match pollAnswer s with
  | some payload => if hasToken s.params.cmdMaxLen payload then [.sensorCalibrate] else []
  | none => []

/-- The byte of a packet as a number, byte 0 first. -/
def packetByte (p : Packet) (b : Nat) : Nat := (p.toList.getD b 0).toNat

/-- The host's move at this step, if it makes one. -/
def hostMove (s : State) : Option HostAction := s.hostIn.head?.join

/-- The state a step works on: the host's entry for this step is taken. -/
def takeHost (s : State) : State := { s with hostIn := s.hostIn.tail }

/-- The operation the phase alone selects, whatever the other registers hold (30_encoding.md R70). -/
def SelectedIn (i : Instr) (p : Phase) : Prop :=
  ∀ s : State, s.phase = p → decode (phaseSelector s .first) = .ok i

/-- Whether a sample position of a segment is not a header word (20_memory.md R42). -/
def isPayload (i : Nat) : Prop := i < 4920 ∧ 2 ≤ i % 82

/-- The value of sample position `i` of slot `k`, from its two bytes (20_memory.md R43). -/
def slotSample (s : State) (k i : Nat) : Nat :=
  (readAt 0 (s.slot k) (2 * i)).toNat * 256 + (readAt 0 (s.slot k) (2 * i + 1)).toNat

/-- `v` is a non-zero sample of the frame the shelf holds (42_range_tracker.md R117). -/
def FrameHas (s : State) (v : Nat) : Prop :=
  v ≠ 0 ∧ ∃ k i, k < Config.segCount s.cfgVariant ∧ isPayload i ∧ slotSample s k i = v

/-- `t` has the bytes of `pktbuf` in slot `k` and every other slot as `s` has it (20_memory.md R49). -/
def StoresSlot (s t : State) (k : Nat) : Prop :=
  (∀ b, b < 9840 → readAt 0 (t.slot k) b = readAt 0 s.pktbuf b) ∧ ∀ j, j ≠ k → t.slot j = s.slot j

/-- The polls among the recorded calls. -/
def Call.isPoll : Call → Bool
  | .netPoll _ => true
  | .busRead | .timerWait _ => false

/-- The phases one core step can lead to (10_state.md R12, 40_synchronizer.md R80,
41_reassembler.md R100); IDLE is left by START, HALT only by RESET. -/
def Phase.successors : Phase → List Phase
  | .idle => []
  | .attBegin => [.seek]
  | .seek => [.seek, .reasm, .backoff, .halt]
  | .backoff => [.seek, .rbtClose]
  | .rbtClose => [.rbtReboot]
  | .rbtReboot => [.rbtWarm]
  | .rbtWarm => [.rbtOpen]
  | .rbtOpen => [.seek]
  | .reasm => [.extract, .attBegin]
  | .extract => [.range]
  | .range => [.map]
  | .map => [.pubRaw]
  | .pubRaw => [.pubPreview]
  | .pubPreview => [.pubPoll]
  | .pubPoll => [.attBegin]
  | .halt => []

/-! ### The sequencer (10_state.md R13, R15, R16, R20) -/

/-- `pos` by phase (10_state.md R13). -/
def posAllowed (s : State) : Prop :=
  match s.phase with
  | .seek => s.pos.toNat < 60
  | .idle | .backoff | .rbtClose | .rbtReboot | .rbtWarm | .rbtOpen => s.pos = 0
  | .reasm => s.pos.toNat = 60 ∨ (s.cfgVariant = 1 ∧ s.pos.toNat = 20)
  | .attBegin | .extract | .range | .map | .pubRaw | .pubPreview | .pubPoll | .halt =>
    s.pos.toNat ≤ 60

/-- `resets` by phase: never past 750, and 750 only on the way to the recovery (10_state.md R15). -/
def resetsAllowed (s : State) : Prop :=
  match s.phase with
  | .idle | .rbtWarm | .rbtOpen => s.resets = 0
  | .backoff => 1 ≤ s.resets.toNat ∧ s.resets.toNat ≤ 750
  | .rbtClose | .rbtReboot => s.resets.toNat = 750
  | .attBegin | .seek | .reasm | .extract | .range | .map | .pubRaw | .pubPreview | .pubPoll
  | .halt => s.resets.toNat < 750

/-- `segId` by phase: 0 in low-res; in high-res a valid identifier exactly after position 20 was
accepted in this pass, and 4 while a frame is ready (10_state.md R16, 41_reassembler.md R100). -/
def segAllowed (s : State) : Prop :=
  if s.cfgVariant = 0 then s.segId = 0
  else
    match s.phase with
    | .idle | .backoff | .rbtClose | .rbtReboot | .rbtWarm | .rbtOpen => s.segId = 0
    | .seek => if s.pos.toNat ≤ 20 then s.segId = 0 else segValid s.segId = true
    | .reasm => segValid s.segId = decide (s.pos.toNat = 60)
    | .extract | .range | .map | .pubRaw | .pubPreview | .pubPoll => s.segId = 4
    | .attBegin | .halt => True

/-- The bus handle is open but in IDLE and from RBT.CLOSE to RBT.OPEN (60_exceptions.md R172). -/
def handleAllowed (s : State) : Prop :=
  match s.phase with
  | .idle | .rbtReboot | .rbtWarm | .rbtOpen => s.busOpen = false
  | .attBegin | .seek | .backoff | .rbtClose | .reasm | .extract | .range | .map | .pubRaw
  | .pubPreview | .pubPoll | .halt => s.busOpen = true

/-- The registers of the sequencer stay in the ranges the spec gives them. -/
def SequencerInv (s : State) : Prop :=
  posAllowed s ∧ resetsAllowed s ∧ segAllowed s ∧ handleAllowed s

/-! ### Range and palette registers (10_state.md R18, R19, R23) -/

/-- `diff` is at least 1, the palette select is not the reserved code, a pinned bound holds its
configured value while running, and from MAP to PUB_POLL `diff` and its flag are those of the bounds. -/
def RangeInv (s : State) : Prop :=
  s.diff ≠ 0 ∧ s.cfgPalette ≠ 3 ∧
  (s.phase ≠ .idle →
    (autoMin s = false → s.rangeMin = s.cfgMin) ∧ (autoMax s = false → s.rangeMax = s.cfgMax)) ∧
  (s.phase ∈ [.map, .pubRaw, .pubPreview, .pubPoll] →
    s.diff = clampedDiff s.rangeMin s.rangeMax ∧
    s.rangeDegenerate = degenerate s.rangeMin s.rangeMax)

/-! ### Memories (20_memory.md R40 to R45) -/

/-- Every memory is in canonical form and inside its space, the image memories are empty before
START, and in low-res no grid cell outside the 80x60 corner is populated (20_memory.md R44). -/
def MemoryInv (s : State) : Prop :=
  memWf 0 9840 s.pktbuf = true ∧
  (∀ k, k < 4 → memWf 0 9840 (s.slot k) = true) ∧
  memWf 0 19200 s.grid = true ∧
  memWf Pixel.black (Config.width s.cfgVariant * Config.height s.cfgVariant) s.preview = true ∧
  (s.phase = .idle → s.grid = [] ∧ s.preview = []) ∧
  (s.cfgVariant = 0 → ∀ r c, r < 120 → c < 160 → ¬ (r < 60 ∧ c < 80) →
    readAt 0 s.grid (160 * r + c) = 0)

/-! ### Validly sequenced segments (40_synchronizer.md, contract; 10_state.md R29 a) -/

/-- The first `n` packet slots hold packets whose sequence number is their position. -/
def Sequenced (m : Mem Byte) (n : Nat) : Prop :=
  ∀ q, q < n → (seqField (headerAt m q)).toNat = q

/-- What is acquired so far in the pass, and every segment on the shelf, is validly sequenced; a
high-res segment sits in the slot its packet 20 names (20_memory.md R42); a slot never stored is
empty; in low-res only slot 0 is ever stored (41_reassembler.md R101). -/
def SegmentInv (s : State) : Prop :=
  (s.phase = .seek → Sequenced s.pktbuf s.pos.toNat) ∧
  (s.phase = .reasm → s.pos.toNat = 60 → Sequenced s.pktbuf 60) ∧
  (s.cfgVariant = 1 → (s.phase = .seek ∧ 20 < s.pos.toNat) ∨ s.phase = .reasm →
    segField (headerAt s.pktbuf 20) = s.segId) ∧
  (∀ k, k < 4 → s.slot k = [] ∨ (Sequenced (s.slot k) 60 ∧
    (s.cfgVariant = 1 → (segField (headerAt (s.slot k) 20)).toNat = k + 1))) ∧
  (s.cfgVariant = 0 → ∀ k, 1 ≤ k → k < 4 → s.slot k = []) ∧
  (s.phase = .idle → ∀ k, k < 4 → s.slot k = [])

/-- Two states that differ at most in bytes of `pktbuf` that no packet of the current pass has written
(10_state.md R29 a). -/
def SameButStalePackets (s s' : State) : Prop :=
  s' = { s with pktbuf := s'.pktbuf } ∧
  (memWf 0 9840 s.pktbuf = true ∧ memWf 0 9840 s'.pktbuf = true) ∧
  (s.phase = .seek →
    ∀ b, b < 164 * s.pos.toNat → readAt 0 s'.pktbuf b = readAt 0 s.pktbuf b) ∧
  (s.phase = .reasm → s.pos.toNat = 60 →
    ∀ b, b < 9840 → readAt 0 s'.pktbuf b = readAt 0 s.pktbuf b)

/-! ### The output trace (60_exceptions.md R172, 44_publisher.md R140, 20_memory.md R53) -/

def Event.isBusOpen : Event → Bool
  | .busOpen _ _ => true
  | .busClose _ | .sensorReboot | .sensorCalibrate | .netSend _ | .previewFrame _ _ _ => false

def Event.isBusClose : Event → Bool
  | .busClose _ => true
  | .busOpen _ _ | .sensorReboot | .sensorCalibrate | .netSend _ | .previewFrame _ _ _ => false

def Event.isNetSend : Event → Bool
  | .netSend _ => true
  | .busOpen _ _ | .busClose _ | .sensorReboot | .sensorCalibrate | .previewFrame _ _ _ => false

def Event.isPreviewFrame : Event → Bool
  | .previewFrame _ _ _ => true
  | .busOpen _ _ | .busClose _ | .sensorReboot | .sensorCalibrate | .netSend _ => false

/-- A poll that took a datagram whose examined bytes hold the token. -/
def Call.isCommand (maxLen : Nat) : Call → Bool
  | .netPoll (some payload) => hasToken maxLen payload
  | .netPoll none | .busRead | .timerWait _ => false

/-- `busOpen` records which of `open` and `close` was last emitted (10_state.md R20). -/
def HandleInv (s : State) : Prop :=
  s.trace.countP Event.isBusOpen = s.trace.countP Event.isBusClose + (if s.busOpen then 1 else 0)

/-- As many calibrations as polled datagrams with the token (44_publisher.md R140). -/
def CalibrationInv (s : State) : Prop :=
  s.trace.count .sensorCalibrate = s.calls.countP (Call.isCommand s.params.cmdMaxLen)

/-- One preview for each raw frame, the raw frame first (44_publisher.md R134). -/
def PublishInv (s : State) : Prop :=
  s.trace.countP Event.isNetSend =
    s.trace.countP Event.isPreviewFrame + (if s.phase = .pubPreview then 1 else 0)

end Sys2Proof.Machine
end

