-- ==== Sys2Proof/Certificates/Slice0/Obligations.lean ====
section
/-! DEFINITION. The statements about the model, each from the spec's numbered rules. -/

open Sys2Proof Sys2Proof.Machine

/-! ### Host control (45_host_control.md, 70_reset_and_hazards.md) -/

/-- R146: in IDLE the numbered register takes the low bits of the value, palette code 3 is refused,
reserved and read-only numbers take nothing; in any other phase nothing changes. -/
def Obligations.CfgWrWritesOneRegisterInIdle : Prop :=
  ∀ (num : BitVec 4) (value : BitVec 32) (s : State),
    (s.phase = .idle → exec (.cfgWr num value) s = .next { s with
      cfgVariant := if num = 0 then BitVec.ofNat 1 value.toNat else s.cfgVariant
      cfgPalette :=
        if num = 1 ∧ value.toNat % 4 ≠ 3 then BitVec.ofNat 2 value.toNat else s.cfgPalette
      cfgAuto := if num = 2 then BitVec.ofNat 2 value.toNat else s.cfgAuto
      cfgMin := if num = 3 then BitVec.ofNat 16 value.toNat else s.cfgMin
      cfgMax := if num = 4 then BitVec.ofNat 16 value.toNat else s.cfgMax
      cfgBusClock := if num = 5 then value else s.cfgBusClock
      cfgLogLevel := if num = 6 then BitVec.ofNat 8 value.toNat else s.cfgLogLevel }) ∧
    (s.phase ≠ .idle → exec (.cfgWr num value) s = .next s)

/-- R148, with the register numbers of R21, the STATUS bits of R20 and the phase codes of R12: the value returned is the
register zero-extended, 0 for the reserved numbers, and nothing of the core changes. -/
def Obligations.CfgRdReturnsNumberedRegister : Prop :=
  ∀ (num : BitVec 4) (s : State), ∃ v : BitVec 32,
    exec (.cfgRd num) s = .next { s with replies := s.replies ++ [v] } ∧
    v.toNat =
      match num.toNat with
      | 0 => s.cfgVariant.toNat
      | 1 => s.cfgPalette.toNat
      | 2 => s.cfgAuto.toNat
      | 3 => s.cfgMin.toNat
      | 4 => s.cfgMax.toNat
      | 5 => s.cfgBusClock.toNat
      | 6 => s.cfgLogLevel.toNat
      | 8 =>
        (if s.phase ≠ .idle ∧ s.phase ≠ .halt then 1 else 0) + (if s.phase = .halt then 2 else 0) +
          (if s.netDegraded then 4 else 0) + (if s.rangeDegenerate then 8 else 0) +
          (if s.busOpen then 16 else 0)
      | 9 => s.resets.toNat
      | 10 => s.invalidSegCount.toNat
      | 11 => s.rangeMin.toNat
      | 12 => s.rangeMax.toNat
      | 13 =>
        (match s.phase with
          | .idle => 0
          | .attBegin => 1
          | .seek => 2
          | .backoff => 3
          | .rbtClose => 4
          | .rbtReboot => 5
          | .rbtWarm => 6
          | .rbtOpen => 7
          | .reasm => 8
          | .extract => 9
          | .range => 10
          | .map => 11
          | .pubRaw => 12
          | .pubPreview => 13
          | .pubPoll => 14
          | .halt => 15) * 2 ^ 6 + s.pos.toNat
      | _ => 0

/-- R147: in IDLE, START records the set-up answer, loads the bounds, opens the bus and begins; in any
other phase it is ignored. -/
def Obligations.StartLoadsBoundsAndOpensBus : Prop :=
  ∀ (netOk : Bool) (s : State),
    (s.phase = .idle → exec (.start netOk) s = .next { s with
      netDegraded := !netOk
      causes := if netOk then s.causes else s.causes ++ [.netSetupFailure]
      rangeMin := s.cfgMin
      rangeMax := s.cfgMax
      trace := s.trace ++ [.busOpen s.params.busId s.cfgBusClock]
      busOpen := true
      phase := .attBegin }) ∧
    (s.phase ≠ .idle → exec (.start netOk) s = .next s)

/-- R180 and R30: in any phase RESET gives every register, flag and memory its reset value and empties
the trace; no event. (`pktbuf` is unspecified in R30 and not spoken of.) -/
def Obligations.ResetGivesEveryResetValue : Prop :=
  ∀ s : State, ∃ t, exec .reset s = .next t ∧
    (t.phase = .idle ∧ t.pos = 0 ∧ t.resets = 0 ∧ t.segId = 0 ∧ t.invalidSegCount = 0 ∧
      t.rangeMin = 0 ∧ t.rangeMax = 65535 ∧ t.diff = 65535) ∧
    (t.busOpen = false ∧ t.netDegraded = false ∧ t.rangeDegenerate = false) ∧
    (t.cfgVariant = 0 ∧ t.cfgPalette = 0 ∧ t.cfgAuto = 0b11 ∧ t.cfgMin = 0 ∧ t.cfgMax = 65535 ∧
      t.cfgBusClock = s.params.busClockDefault ∧ t.cfgLogLevel = 0) ∧
    ((∀ k b, readAt 0 (t.slot k) b = 0) ∧ (∀ n, readAt 0 t.grid n = 0) ∧
      (∀ n, readAt Pixel.black t.preview n = ⟨0, 0, 0⟩) ∧ t.trace = [])

/-- RESET touches nothing outside the core: the parameters and what the environment and the host have
yet to answer stay, while the model's records and `pktbuf` are emptied (the model's choice, log entries
2, 4 and 5). -/
def Obligations.ResetKeepsWhatIsPending : Prop :=
  ∀ s : State, exec .reset s = .next { State.resetWith s.params with
    busIn := s.busIn, pollIn := s.pollIn, hostIn := s.hostIn }

/-- R30 of `State.reset` itself, and with it the configuration of R21. (`pktbuf` is not spoken of.) -/
def Obligations.StateAfterResetIsTheTable : Prop :=
  (State.reset.phase = .idle ∧ State.reset.pos = 0 ∧ State.reset.resets = 0 ∧
    State.reset.segId = 0 ∧ State.reset.invalidSegCount = 0 ∧ State.reset.rangeMin = 0 ∧
    State.reset.rangeMax = 65535 ∧ State.reset.diff = 65535) ∧
  (State.reset.busOpen = false ∧ State.reset.netDegraded = false ∧
    State.reset.rangeDegenerate = false) ∧
  (State.reset.cfgVariant = 0 ∧ State.reset.cfgPalette = 0 ∧ State.reset.cfgAuto = 0b11 ∧
    State.reset.cfgMin = 0 ∧ State.reset.cfgMax = 65535 ∧
    State.reset.cfgBusClock = Config.busClockDefault ∧ State.reset.cfgLogLevel = 0) ∧
  ((∀ k b, readAt 0 (State.reset.slot k) b = 0) ∧ (∀ n, readAt 0 State.reset.grid n = 0) ∧
    (∀ n, readAt Pixel.black State.reset.preview n = ⟨0, 0, 0⟩) ∧ State.reset.trace = [])

/-! ### The synchronizer (40_synchronizer.md) -/

/-- R81: `pos`, `resets` and `segId` cleared, one poll, phase SEEK, nothing else. -/
def Obligations.AttBeginClearsPassAndPolls : Prop :=
  SelectedIn .attBegin .attBegin ∧
  ∀ s : State, exec .attBegin s = .next { s with
    pos := 0
    resets := 0
    segId := 0
    pollIn := s.pollIn.tail
    calls := s.calls ++ [.netPoll s.pollIn.head?.join]
    trace := s.trace ++ polledEvents s
    phase := .seek }

/-- R62 with the fields of R61 and R63, from the packet's bytes: the ordered test. -/
def Obligations.PacketBytesSelectOneOperation : Prop :=
  ∀ (pos : BitVec 6) (variant : BitVec 1),
    decodePacket none pos variant = .fatal ∧
    ∀ p : Packet,
      (packetByte p 1 ≠ pos.toNat → decodePacket (some (packetHeader p)) pos variant = .desync) ∧
      (packetByte p 1 = pos.toNat → variant = 1 → pos.toNat = 20 →
        1 ≤ packetByte p 0 / 16 → packetByte p 0 / 16 ≤ 4 →
        decodePacket (some (packetHeader p)) pos variant =
          .segok (BitVec.ofNat 4 (packetByte p 0 / 16))) ∧
      (packetByte p 1 = pos.toNat → variant = 1 → pos.toNat = 20 →
        ¬ (1 ≤ packetByte p 0 / 16 ∧ packetByte p 0 / 16 ≤ 4) →
        decodePacket (some (packetHeader p)) pos variant =
          .segbad (BitVec.ofNat 4 (packetByte p 0 / 16))) ∧
      (packetByte p 1 = pos.toNat → ¬ (variant = 1 ∧ pos.toNat = 20) →
        decodePacket (some (packetHeader p)) pos variant = .accept)

/-- R71: the low nibble of byte 0, bytes 2 and 3 and the payload never change the selection, and
`SEG` matters only at position 20 in high-res. -/
def Obligations.SelectionIgnoresOtherHeaderBits : Prop :=
  ∀ (p p' : Packet) (pos : BitVec 6) (variant : BitVec 1),
    packetByte p 1 = packetByte p' 1 →
    (packetByte p 0 / 16 = packetByte p' 0 / 16 ∨ variant = 0 ∨ pos.toNat ≠ 20) →
    decodePacket (some (packetHeader p)) pos variant =
      decodePacket (some (packetHeader p')) pos variant

/-- R82: the packet's 164 bytes go into the slot `pos` names, every other byte of `pktbuf` and every
register stays, and the operation R62 selects runs on that in the same step. -/
def Obligations.PktRdStoresThenRunsSelected : Prop :=
  SelectedIn .pktRd .seek ∧
  (∀ (s : State) (p : Packet) (rest : List BusAnswer),
    s.busIn = .packet p :: rest → s.pos.toNat < 60 → s.resets.toNat < 1023 →
    ∃ t u, exec .pktRd s = .next u ∧
      exec (decodePacket (some (packetHeader p)) s.pos s.cfgVariant).instr t = .next u ∧
      t = { s with busIn := rest, calls := s.calls ++ [.busRead], pktbuf := t.pktbuf } ∧
      (∀ b, b < 164 → (readAt 0 t.pktbuf (164 * s.pos.toNat + b)).toNat = packetByte p b) ∧
      (∀ a, ¬ (164 * s.pos.toNat ≤ a ∧ a < 164 * s.pos.toNat + 164) →
        readAt 0 t.pktbuf a = readAt 0 s.pktbuf a) ∧
      headerAt t.pktbuf s.pos.toNat = packetHeader p) ∧
  (∀ (s : State) (rest : List BusAnswer), s.busIn = .fatal :: rest →
    exec .pktRd s = exec .pktFatal { s with busIn := rest, calls := s.calls ++ [.busRead] })

/-- R83: the next position, a poll exactly when the new position is 20, 40 or 60, the pass complete
at 60. -/
def Obligations.PktAcceptAdvancesAndPolls : Prop :=
  ∀ s : State, s.pos.toNat < 60 →
    exec .pktAccept s = .next { s with
      pos := BitVec.ofNat 6 (s.pos.toNat + 1)
      pollIn := if s.pos.toNat ∈ [19, 39, 59] then s.pollIn.tail else s.pollIn
      calls := s.calls ++ (if s.pos.toNat ∈ [19, 39, 59] then [.netPoll s.pollIn.head?.join] else [])
      trace := s.trace ++ (if s.pos.toNat ∈ [19, 39, 59] then polledEvents s else [])
      phase := if s.pos.toNat = 59 then .reasm else .seek }

/-- R84 and R85: a valid identifier is kept and the pass goes on at 21; a bad one is kept, the
condition recognised and the pass handed over at once with `pos` unchanged. -/
def Obligations.SegmentIdentifierAcceptedOrAborts : Prop :=
  ∀ (seg : BitVec 4) (s : State),
    exec (.pktSegok seg) s = .next { s with segId := seg, pos := 21, phase := .seek } ∧
    exec (.pktSegbad seg) s = .next { s with
      segId := seg, causes := s.causes ++ [.invalidSegment], phase := .reasm }

/-- R86: progress discarded, one desync counted, BACKOFF; everything else, `pktbuf` too, stays. -/
def Obligations.DesyncRestartsAtPositionZero : Prop :=
  ∀ s : State, s.resets.toNat < 1023 →
    exec .pktDesync s = .next { s with
      pos := 0
      segId := 0
      resets := BitVec.ofNat 10 (s.resets.toNat + 1)
      causes := s.causes ++ [.transientDesync]
      phase := .backoff }

/-- R87 and R161: only the phase changes (and the record of the cause); in HALT no step is enabled,
which the model gives as the fault `halted`, and only RESET leaves it. -/
def Obligations.BusFatalHaltsUntilReset : Prop :=
  (∀ s : State, exec .pktFatal s = .next { s with
    causes := s.causes ++ [.busFatal], phase := .halt }) ∧
  (∀ s : State, s.phase = .halt → hostMove s = none → step s = .fault .halted) ∧
  (∀ s t : State, s.phase = .halt → hostMove s ≠ some .reset → step s = .next t →
    t = { takeHost s with replies := t.replies })

/-- R88: the wait, then the test for equality with 750. -/
def Obligations.BackoffWaitsThenTestsThreshold : Prop :=
  SelectedIn .synBackoff .backoff ∧
  ∀ s : State, exec .synBackoff s = .next { s with
    calls := s.calls ++ [.timerWait s.params.backoffTime]
    causes := if s.resets.toNat = 750 then s.causes ++ [.persistentDesync] else s.causes
    phase := if s.resets.toNat = 750 then .rbtClose else .seek }

/-- R89 to R92: close, reboot with both error counters cleared, warm-up, open. -/
def Obligations.RecoveryOperations : Prop :=
  (SelectedIn .rbtClose .rbtClose ∧ SelectedIn .rbtReboot .rbtReboot ∧
    SelectedIn .rbtWarm .rbtWarm ∧ SelectedIn .rbtOpen .rbtOpen) ∧
  ∀ s : State,
    exec .rbtClose s = .next { s with
      trace := s.trace ++ [.busClose s.params.busId], busOpen := false, phase := .rbtReboot } ∧
    exec .rbtReboot s = .next { s with
      trace := s.trace ++ [.sensorReboot], resets := 0, invalidSegCount := 0, phase := .rbtWarm } ∧
    exec .rbtWarm s = .next { s with
      calls := s.calls ++ [.timerWait s.params.warmupTime], phase := .rbtOpen } ∧
    exec .rbtOpen s = .next { s with
      trace := s.trace ++ [.busOpen s.params.busId s.cfgBusClock], busOpen := true, phase := .seek }

/-- R93, the clean pass (the spec's own derivation from R82 to R84): 60 packets in order complete the pass in 60 steps with reset count 0, the
packets in order in `pktbuf` and three polls made. -/
def Obligations.CleanPassCompletesInSixtySteps : Prop :=
  ∀ (s : State) (packets : List Packet) (rest : List BusAnswer),
    s.phase = .seek → s.pos = 0 → s.resets = 0 → s.hostIn = [] →
    s.busIn = packets.map .packet ++ rest → packets.length = 60 →
    (∀ q p, packets[q]? = some p → packetByte p 1 = q) →
    (∀ p, s.cfgVariant = 1 → packets[20]? = some p →
      1 ≤ packetByte p 0 / 16 ∧ packetByte p 0 / 16 ≤ 4) →
    ∃ t, core.run 60 s = .next t ∧
      t.phase = .reasm ∧ t.pos.toNat = 60 ∧ t.resets = 0 ∧ t.busIn = rest ∧
      (∀ q b p, packets[q]? = some p → b < 164 →
        (readAt 0 t.pktbuf (164 * q + b)).toNat = packetByte p b) ∧
      (∀ p, s.cfgVariant = 1 → packets[20]? = some p → t.segId.toNat = packetByte p 0 / 16) ∧
      t.calls.countP Call.isPoll = s.calls.countP Call.isPoll + 3

/-- R94, the reboot cycle (the spec's own derivation from R86 to R92): 750 desyncs from a fresh count run the recovery exactly once and leave the
core where the streak began, but for the trace, `invalidSegCount` and what no rule reads. -/
def Obligations.RebootCycleOncePer750Desyncs : Prop :=
  ∀ (s : State) (packets : List Packet) (rest : List BusAnswer),
    s.phase = .seek → s.pos = 0 → s.resets = 0 → s.segId = 0 → s.busOpen = true → s.hostIn = [] →
    s.busIn = packets.map .packet ++ rest → packets.length = 750 →
    (∀ p ∈ packets, packetByte p 1 ≠ 0) →
    ∃ t, core.run 1504 s = .next t ∧
      t = { s with
        busIn := rest
        invalidSegCount := 0
        trace := s.trace ++ [.busClose s.params.busId, .sensorReboot,
          .busOpen s.params.busId s.cfgBusClock]
        causes := s.causes ++ List.replicate 750 .transientDesync ++ [.persistentDesync]
        pktbuf := t.pktbuf
        calls := t.calls } ∧
      t.calls.countP Call.isPoll = s.calls.countP Call.isPoll

/-! ### The reassembler (41_reassembler.md) -/

/-- R101, R102, R103: which store runs, the bytes of `pktbuf` whole in the slot, every other slot and
register as before, and whether a frame is ready. -/
def Obligations.SegmentStoresFillOneSlot : Prop :=
  (∀ s : State, s.phase = .reasm → s.cfgVariant = 0 →
    decode (phaseSelector s .first) = .ok .rsmStoreLr) ∧
  (∀ s : State, s.phase = .reasm → s.cfgVariant = 1 → 1 ≤ s.segId.toNat → s.segId.toNat ≤ 3 →
    decode (phaseSelector s .first) = .ok .rsmStoreHr) ∧
  (∀ s : State, s.phase = .reasm → s.cfgVariant = 1 → s.segId.toNat = 4 →
    decode (phaseSelector s .first) = .ok .rsmStoreHr4) ∧
  (∀ s : State, ∃ t, exec .rsmStoreLr s = .next t ∧
    t = { s with shelf := t.shelf, phase := .extract } ∧ StoresSlot s t 0) ∧
  (∀ s : State, 1 ≤ s.segId.toNat → s.segId.toNat ≤ 4 → ∃ t, exec .rsmStoreHr s = .next t ∧
    t = { s with shelf := t.shelf, phase := .attBegin } ∧ StoresSlot s t (s.segId.toNat - 1)) ∧
  (∀ s : State, ∃ t, exec .rsmStoreHr4 s = .next t ∧
    t = { s with shelf := t.shelf, phase := .extract } ∧ StoresSlot s t 3)

/-- R104: counted modulo 65536, a new pass, nothing else. -/
def Obligations.InvalidSegmentIsCounted : Prop :=
  (∀ s : State, s.phase = .reasm → s.cfgVariant = 1 → ¬ (1 ≤ s.segId.toNat ∧ s.segId.toNat ≤ 4) →
    decode (phaseSelector s .first) = .ok .rsmInvalid) ∧
  ∀ s : State, exec .rsmInvalid s = .next { s with
    invalidSegCount := BitVec.ofNat 16 ((s.invalidSegCount.toNat + 1) % 65536)
    phase := .attBegin }

/-- R107 (the spec's own derivation) with R105: in the active area, with the inverse the rule gives, and onto. -/
def Obligations.PositionsFillActiveAreaOnce : Prop :=
  ∀ variant : BitVec 1,
    (∀ k i, k < Config.segCount variant → isPayload i →
      let rc := positionOf i k variant
      rc.1 < Config.height variant ∧ rc.2 < Config.width variant ∧
      (variant = 0 → rc = (i / 82, i % 82 - 2) ∧ k = 0 ∧ i = 82 * rc.1 + (rc.2 + 2)) ∧
      (variant = 1 →
        rc = (i / 82 / 2 + 30 * k, i % 82 - 2 + 80 * (i / 82 % 2)) ∧ k = rc.1 / 30 ∧
        i = 82 * (2 * (rc.1 % 30) + rc.2 / 80) + (rc.2 % 80 + 2))) ∧
    (∀ r c, r < Config.height variant → c < Config.width variant →
      ∃ k i, k < Config.segCount variant ∧ isPayload i ∧ positionOf i k variant = (r, c))

/-- R106: every non-zero sample of the frame's slots stands at its position's cell, every
other cell of the grid and every register stays. -/
def Obligations.ExtractPlacesEveryNonzeroSample : Prop :=
  SelectedIn .rsmExtract .extract ∧
  ∀ s : State, ∃ t, exec .rsmExtract s = .next t ∧
    t = { s with grid := t.grid, phase := .range } ∧
    (∀ k i, k < Config.segCount s.cfgVariant → isPayload i → slotSample s k i ≠ 0 →
      (readAt 0 t.grid (160 * (positionOf i k s.cfgVariant).1 + (positionOf i k s.cfgVariant).2)).toNat
        = slotSample s k i) ∧
    (∀ n, (∀ k i, k < Config.segCount s.cfgVariant → isPayload i → slotSample s k i ≠ 0 →
        160 * (positionOf i k s.cfgVariant).1 + (positionOf i k s.cfgVariant).2 ≠ n) →
      readAt 0 t.grid n = readAt 0 s.grid n)

/-- R108 (the spec's own derivation): no step but RESET turns a populated cell to 0. -/
def Obligations.PopulatedCellsStayPopulated : Prop :=
  ∀ s t : State, step s = .next t → hostMove s ≠ some .reset →
    ∀ n, readAt 0 s.grid n ≠ 0 → readAt 0 t.grid n ≠ 0

/-! ### The range tracker (42_range_tracker.md) -/

/-- R116: with both bounds pinned nothing is written. -/
def Obligations.HoldKeepsBothBounds : Prop :=
  (∀ s : State, s.phase = .range → s.cfgAuto = 0 →
    decode (phaseSelector s .first) = .ok .rngHold) ∧
  ∀ s : State, exec .rngHold s = .next s

/-- R117: an automatic bound is the extreme of this frame's non-zero samples, or where the running
value starts if there is none; a pinned bound and everything else stays. -/
def Obligations.ScanFindsFrameExtremes : Prop :=
  (∀ s : State, s.phase = .range → s.cfgAuto ≠ 0 →
    decode (phaseSelector s .first) = .ok .rngScan) ∧
  ∀ s : State, ∃ t, exec .rngScan s = .next t ∧
    t = { s with rangeMin := t.rangeMin, rangeMax := t.rangeMax } ∧
    (s.cfgAuto.getLsbD 1 = false → t.rangeMax = s.rangeMax) ∧
    (s.cfgAuto.getLsbD 0 = false → t.rangeMin = s.rangeMin) ∧
    (s.cfgAuto.getLsbD 1 = true →
      (∀ v, FrameHas s v → v ≤ t.rangeMax.toNat) ∧
      (FrameHas s t.rangeMax.toNat ∨ ((∀ v, ¬ FrameHas s v) ∧ t.rangeMax = 0))) ∧
    (s.cfgAuto.getLsbD 0 = true →
      (∀ v, FrameHas s v → t.rangeMin.toNat ≤ v) ∧
      (FrameHas s t.rangeMin.toNat ∨ ((∀ v, ¬ FrameHas s v) ∧ t.rangeMin = 65535)))

/-- R118: the exact difference, clamped to 1 with the flag and the cause when it is below 1. -/
def Obligations.ScaleClampsDegenerateRange : Prop :=
  (∀ s : State, s.phase = .range → decode (phaseSelector s .second) = .ok .rngScale) ∧
  ∀ s : State,
    ((s.rangeMax.toNat : Int) - s.rangeMin.toNat < 1 →
      exec .rngScale s = .next { s with
        causes := s.causes ++ [.degenerateRange]
        rangeDegenerate := true
        diff := 1
        phase := .map }) ∧
    (1 ≤ (s.rangeMax.toNat : Int) - s.rangeMin.toNat →
      exec .rngScale s = .next { s with
        rangeDegenerate := false
        diff := BitVec.ofNat 16 (s.rangeMax.toNat - s.rangeMin.toNat)
        phase := .map })

/-! ### The palette mapper (43_palette_mapper.md) -/

/-- R126, with the ROM each select picks as R23 names them: the pixel at the position of every non-zero sample is the clamped palette triple of
its floored scaled value, every other pixel and every register stays. -/
def Obligations.MapPaintsEveryNonzeroSample : Prop :=
  SelectedIn .palMap .map ∧
  (∀ params : Params, selectPalette params 0 = some params.ironblack ∧
    selectPalette params 1 = some params.rainbow ∧
    selectPalette params 2 = some params.grayscale) ∧
  ∀ (s : State) (P : Palette), selectPalette s.params s.cfgPalette = some P → s.diff ≠ 0 →
    ∃ t, exec .palMap s = .next t ∧ t = { s with preview := t.preview, phase := .pubRaw } ∧
      (∀ k i (sv : Int), k < Config.segCount s.cfgVariant → isPayload i → slotSample s k i ≠ 0 →
        sv * s.diff.toNat ≤ ((slotSample s k i : Int) - s.rangeMin.toNat) * 255 →
        ((slotSample s k i : Int) - s.rangeMin.toNat) * 255 < (sv + 1) * s.diff.toNat →
        readAt Pixel.black t.preview (Config.width s.cfgVariant *
            (positionOf i k s.cfgVariant).1 + (positionOf i k s.cfgVariant).2) =
          ⟨P.entries.getD (max 0 (min (3 * sv) ((P.len : Int) - 1))).toNat 0,
            P.entries.getD (max 0 (min (3 * sv + 1) ((P.len : Int) - 1))).toNat 0,
            P.entries.getD (max 0 (min (3 * sv + 2) ((P.len : Int) - 1))).toNat 0⟩) ∧
      (∀ n, (∀ k i, k < Config.segCount s.cfgVariant → isPayload i → slotSample s k i ≠ 0 →
          Config.width s.cfgVariant * (positionOf i k s.cfgVariant).1 +
            (positionOf i k s.cfgVariant).2 ≠ n) →
        readAt Pixel.black t.preview n = readAt Pixel.black s.preview n)

/-- R127: the scaled value is the floor of the exact rational and stays in the range the rule gives. -/
def Obligations.ScaledValueIsExactFloor : Prop :=
  ∀ lo d v : BitVec 16, d ≠ 0 →
    scaledValue lo d v * d.toNat ≤ ((v.toNat : Int) - lo.toNat) * 255 ∧
    ((v.toNat : Int) - lo.toNat) * 255 < (scaledValue lo d v + 1) * d.toNat ∧
    -16711425 ≤ scaledValue lo d v ∧ scaledValue lo d v ≤ 16711425

/-- R128 (the spec's own derivation): under-range gives the first entry three times, an offset past the end the last entry on its
own channel, an in-range offset its entry; the bounds map to 0 and 255; a degenerate range multiplies
by 255. -/
def Obligations.ClampActsOnEachChannel : Prop :=
  ∀ (P : Palette) (lo d v : BitVec 16), d ≠ 0 →
    (v.toNat < lo.toNat → pixelOf P lo d v = ⟨P.first, P.first, P.first⟩) ∧
    (∀ o : Int, (P.len : Int) ≤ o →
      channel P o = channel P ((P.len : Int) - 1) ∧
      some (channel P o) = P.entries[P.len - 1]?) ∧
    (∀ o : Nat, o < P.len → some (channel P o) = P.entries[o]?) ∧
    (P.len = 768 → 256 ≤ scaledValue lo d v → ∃ e, P.entries[767]? = some e ∧
      pixelOf P lo d v = ⟨e, e, e⟩) ∧
    (P.len = 767 → scaledValue lo d v = 255 → ∃ r e, P.entries[765]? = some r ∧
      P.entries[766]? = some e ∧ pixelOf P lo d v = ⟨r, e, e⟩) ∧
    (v = lo → scaledValue lo d v = 0) ∧
    (d.toNat = v.toNat - lo.toNat → scaledValue lo d v = 255) ∧
    (d = 1 → scaledValue lo d v = ((v.toNat : Int) - lo.toNat) * 255)

/-! ### The publisher (44_publisher.md) -/

/-- R64: the match is a search for the three bytes inside the first `min(len, CMD_MAX_LEN)`. -/
def Obligations.TokenMatchIsSubstringSearch : Prop :=
  ∀ (maxLen : Nat) (payload : List Byte),
    hasToken maxLen payload = true ↔
      ∃ j, j + 2 < min payload.length maxLen ∧ payload[j]? = some 0x46 ∧
        payload[j + 1]? = some 0x46 ∧ payload[j + 2]? = some 0x43

/-- R135: one answer taken, at most one calibration, and only for a datagram with the token; no state
of the core changes. -/
def Obligations.CmdPollDispatchesAtMostOnce : Prop :=
  ∀ s : State, ∃ t, exec .cmdPoll s = .next t ∧
    t = { s with
      pollIn := s.pollIn.tail
      calls := s.calls ++ [.netPoll s.pollIn.head?.join]
      trace := t.trace } ∧
    (s.pollIn.head?.join = none → t.trace = s.trace) ∧
    (∀ payload, s.pollIn.head?.join = some payload →
      ((∃ j, j + 2 < min payload.length s.params.cmdMaxLen ∧ payload[j]? = some 0x46 ∧
          payload[j + 1]? = some 0x46 ∧ payload[j + 2]? = some 0x43) ∧
        t.trace = s.trace ++ [.sensorCalibrate]) ∨
      ((¬ ∃ j, j + 2 < min payload.length s.params.cmdMaxLen ∧ payload[j]? = some 0x46 ∧
          payload[j + 1]? = some 0x46 ∧ payload[j + 2]? = some 0x43) ∧
        t.trace = s.trace))

/-- R136 with the layout of R66: 38400 bytes, cell (r, c) in bytes 2n and 2n + 1 with n = 160r + c. -/
def Obligations.RawDatagramHoldsWholeGrid : Prop :=
  SelectedIn .pubRaw .pubRaw ∧
  ∀ s : State, ∃ payload : List Byte,
    exec .pubRaw s = .next { s with
      trace := s.trace ++ [.netSend payload], phase := .pubPreview } ∧
    payload.length = 38400 ∧
    ∀ r c, r < 120 → c < 160 →
      let cell := (readAt 0 s.grid (160 * r + c)).toNat
      let n := 160 * r + c
      (s.params.outBigEndian = false →
        payload[2 * n]? = some (BitVec.ofNat 8 (cell % 256)) ∧
        payload[2 * n + 1]? = some (BitVec.ofNat 8 (cell / 256))) ∧
      (s.params.outBigEndian = true →
        payload[2 * n]? = some (BitVec.ofNat 8 (cell / 256)) ∧
        payload[2 * n + 1]? = some (BitVec.ofNat 8 (cell % 256)))

/-- R137 with R67: one event with WIDTH, HEIGHT and a copy of the pixels in row-major order. -/
def Obligations.PreviewFrameIsRowMajorCopy : Prop :=
  SelectedIn .pubPreview .pubPreview ∧
  ∀ s : State, ∃ pixels : List Pixel,
    exec .pubPreview s = .next { s with
      trace := s.trace ++ [.previewFrame (if s.cfgVariant = 0 then 80 else 160)
        (if s.cfgVariant = 0 then 60 else 120) pixels]
      phase := .pubPoll } ∧
    pixels.length = (if s.cfgVariant = 0 then 4800 else 19200) ∧
    ∀ r c, r < Config.height s.cfgVariant → c < Config.width s.cfgVariant →
      pixels[Config.width s.cfgVariant * r + c]? =
        some (readAt Pixel.black s.preview (Config.width s.cfgVariant * r + c))

/-- R138: one poll, then a new pass. -/
def Obligations.PubPollPollsAndBeginsAnew : Prop :=
  SelectedIn .pubPoll .pubPoll ∧
  ∀ s : State, exec .pubPoll s = .next { s with
    pollIn := s.pollIn.tail
    calls := s.calls ++ [.netPoll s.pollIn.head?.join]
    trace := s.trace ++ polledEvents s
    phase := .attBegin }

/-- The order of R134 for a ready frame: six steps from EXTRACT, each stage run on what the one before
leaves: the extracted grid, the bounds held or scanned, the denominator and its flag, the mapped preview;
then the raw frame of that grid and the hand-over of that preview (in this order by the spec's own choice,
92_eei_decisions.md D18), and the publisher's poll last. -/
def Obligations.ReadyFrameRunsAllStages : Prop :=
  ∀ s : State, s.phase = .extract → s.hostIn = [] → s.cfgPalette ≠ 3 →
    ∃ extracted bounded scaled mapped t : State,
      exec .rsmExtract s = .next extracted ∧
      (if s.cfgAuto = 0 then exec .rngHold extracted else exec .rngScan extracted)
        = .next bounded ∧
      exec .rngScale bounded = .next scaled ∧
      exec .palMap scaled = .next mapped ∧
      core.run 6 s = .next t ∧
      t.grid = extracted.grid ∧ t.preview = mapped.preview ∧
      (t.rangeMin = bounded.rangeMin ∧ t.rangeMax = bounded.rangeMax ∧ t.diff = scaled.diff ∧
        t.rangeDegenerate = scaled.rangeDegenerate ∧ t.causes = scaled.causes) ∧
      t = { s with
        grid := t.grid
        preview := t.preview
        rangeMin := t.rangeMin
        rangeMax := t.rangeMax
        diff := t.diff
        rangeDegenerate := t.rangeDegenerate
        causes := t.causes
        trace := s.trace ++
          [.netSend (rawPayload s.params.outBigEndian t.grid),
            .previewFrame (Config.width s.cfgVariant) (Config.height s.cfgVariant)
              (previewPixels s.cfgVariant t.preview)] ++ polledEvents s
        pollIn := s.pollIn.tail
        calls := s.calls ++ [.netPoll s.pollIn.head?.join]
        phase := .attBegin }

/-- R139, end to end (the spec's own derivation): one clean low-res pass of non-zero samples after reset and START gives exactly one
raw datagram, and it decodes to the 80x60 image in the top-left corner and 0 elsewhere. -/
def Obligations.LowResFrameEndToEnd : Prop :=
  ∀ (params : Params) (netOk : Bool) (packets : List Packet) (polls : List (Option (List Byte))),
    params.outBigEndian = false → packets.length = 60 →
    (∀ q p, packets[q]? = some p → packetByte p 1 = q) →
    (∀ p ∈ packets, ∀ n, n < 80 → packetByte p (4 + 2 * n) * 256 + packetByte p (5 + 2 * n) ≠ 0) →
    ∃ t payload,
      core.run 69 { State.resetWith params with
        hostIn := [some (.start netOk)], busIn := packets.map .packet, pollIn := polls } = .next t ∧
      t.trace.filter Event.isNetSend = [.netSend payload] ∧ payload.length = 38400 ∧
      ∀ r c, r < 120 → c < 160 →
        (payload.getD (2 * (160 * r + c)) 0).toNat +
            256 * (payload.getD (2 * (160 * r + c) + 1) 0).toNat =
          if r < 60 ∧ c < 80 then
            packetByte (packets.getD r (packetOf 0)) (4 + 2 * c) * 256 +
              packetByte (packets.getD r (packetOf 0)) (5 + 2 * c)
          else 0

/-! ### The step -/

/-- A step runs the decoded operation: the host's move if it makes one, else the operation the phase
selects on the state with the host's entry taken, followed in RANGE by the second half (R115). -/
def Obligations.StepRunsTheSelectedOperation : Prop :=
  ∀ s : State,
    (∀ a, hostMove s = some a → step s = exec a.instr (takeHost s)) ∧
    (hostMove s = none → ∀ i, decode (phaseSelector s .first) = .ok i →
      (s.phase ≠ .range → step s = exec i (takeHost s)) ∧
      (s.phase = .range → step s = andThen (exec i (takeHost s)) (exec .rngScale)))

/-- In IDLE without a host move, and in SEEK with nothing on the bus, the core waits: no register,
memory, trace or call changes. (That "no enabled step" of R82 and R181 is a step that keeps the state is
the model's choice, log entry 9.) -/
def Obligations.CoreWaitsInIdleAndOnSilentBus : Prop :=
  ∀ s : State, (s.busIn = [] → exec .pktRd s = .next s) ∧
    (hostMove s = none → (s.phase = .idle ∨ (s.phase = .seek ∧ s.busIn = [])) →
      step s = .next (takeHost s))

/-- R80 and R100 (the spec's own derivations) and the next-phase column of R12 as one graph: no other edge exists; host moves change
the phase only by START in IDLE and RESET. -/
def Obligations.PhaseMovesOnlyAlongTheGraph : Prop :=
  ∀ s t : State, step s = .next t →
    (hostMove s = none →
      t.phase ∈ s.phase.successors ∨
      ((s.phase = .idle ∨ (s.phase = .seek ∧ s.busIn = [])) ∧ t.phase = s.phase)) ∧
    (∀ a, hostMove s = some a →
      t.phase = s.phase ∨ (a = .reset ∧ t.phase = .idle) ∨
      (∃ netOk, a = .start netOk ∧ s.phase = .idle ∧ t.phase = .attBegin))

/-! ### Frames: the only writers of each memory and register -/

/-- The memories: `pktbuf` is written by PKT.RD, the shelf by the three stores, the grid by RSM.EXTRACT,
the preview by PAL.MAP, and all by RESET; every byte, cell and pixel else reads as before (R40). -/
def Obligations.OnlyTheirWritersChangeMemories : Prop :=
  ∀ (i : Instr) (s t : State), exec i s = .next t →
    (i ∉ [.pktRd, .reset] → ∀ a, readAt 0 t.pktbuf a = readAt 0 s.pktbuf a) ∧
    (i ∉ [.rsmStoreLr, .rsmStoreHr, .rsmStoreHr4, .reset] →
      ∀ k b, readAt 0 (t.slot k) b = readAt 0 (s.slot k) b) ∧
    (i ∉ [.rsmExtract, .reset] → ∀ n, readAt 0 t.grid n = readAt 0 s.grid n) ∧
    (i ∉ [.palMap, .reset] → ∀ n, readAt Pixel.black t.preview n = readAt Pixel.black s.preview n)

/-- The sequencer's registers and counters: the writers R13, R15, R16 and R17 name, and RESET. -/
def Obligations.OnlyTheirWritersChangeCounters : Prop :=
  ∀ (i : Instr) (s t : State), exec i s = .next t → i ≠ .reset → i ≠ .pktRd →
    ((∀ seg, i ≠ .pktSegok seg) → i ∉ [.attBegin, .pktAccept, .pktDesync] → t.pos = s.pos) ∧
    (i ∉ [.attBegin, .pktDesync, .rbtReboot] → t.resets = s.resets) ∧
    ((∀ seg, i ≠ .pktSegok seg ∧ i ≠ .pktSegbad seg) → i ∉ [.attBegin, .pktDesync] →
      t.segId = s.segId) ∧
    (i ∉ [.rsmInvalid, .rbtReboot] → t.invalidSegCount = s.invalidSegCount)

/-- The range registers, the flags and the configuration: the writers R18 to R21 name, and RESET. -/
def Obligations.OnlyTheirWritersChangeRangeFlagsConfig : Prop :=
  ∀ (i : Instr) (s t : State), exec i s = .next t → i ≠ .reset →
    ((∀ ok, i ≠ .start ok) → i ≠ .rngScan → t.rangeMin = s.rangeMin ∧ t.rangeMax = s.rangeMax) ∧
    (i ≠ .rngScale → t.diff = s.diff ∧ t.rangeDegenerate = s.rangeDegenerate) ∧
    ((∀ ok, i ≠ .start ok) → i ∉ [.rbtClose, .rbtOpen] → t.busOpen = s.busOpen) ∧
    ((∀ ok, i ≠ .start ok) → t.netDegraded = s.netDegraded) ∧
    ((∀ n v, i ≠ .cfgWr n v) →
      t.cfgVariant = s.cfgVariant ∧ t.cfgPalette = s.cfgPalette ∧ t.cfgAuto = s.cfgAuto ∧
      t.cfgMin = s.cfgMin ∧ t.cfgMax = s.cfgMax ∧ t.cfgBusClock = s.cfgBusClock ∧
      t.cfgLogLevel = s.cfgLogLevel)

/-- R21 and R184: while the core is not in IDLE no step but RESET changes a configuration register. -/
def Obligations.ConfigurationLockedOutsideIdle : Prop :=
  ∀ s t : State, step s = .next t → s.phase ≠ .idle → hostMove s ≠ some .reset →
    t.cfgVariant = s.cfgVariant ∧ t.cfgPalette = s.cfgPalette ∧ t.cfgAuto = s.cfgAuto ∧
    t.cfgMin = s.cfgMin ∧ t.cfgMax = s.cfgMax ∧ t.cfgBusClock = s.cfgBusClock ∧
    t.cfgLogLevel = s.cfgLogLevel

/-- R55 and R130: no step, RESET included, changes the palettes or any other parameter. -/
def Obligations.ParametersAreImmutable : Prop :=
  ∀ s t : State, step s = .next t → t.params = s.params

/-- R53 and R163 (the latter the spec's own derivation): but for RESET a step appends at most one event to the trace and recognises at most one
condition, and takes nothing back. -/
def Obligations.TraceAndCausesGrowByAtMostOne : Prop :=
  ∀ s t : State, step s = .next t → hostMove s ≠ some .reset →
    (∃ es, t.trace = s.trace ++ es ∧ es.length ≤ 1) ∧
    (∃ cs, t.causes = s.causes ++ cs ∧ cs.length ≤ 1)

/-! ### Invariants that every step keeps -/

/-- Every invariant holds right after reset, whatever the parameters. -/
def Obligations.ResetSatisfiesEveryInvariant : Prop :=
  ∀ params : Params,
    SequencerInv (State.resetWith params) ∧ RangeInv (State.resetWith params) ∧
    MemoryInv (State.resetWith params) ∧ SegmentInv (State.resetWith params) ∧
    HandleInv (State.resetWith params) ∧ CalibrationInv (State.resetWith params) ∧
    PublishInv (State.resetWith params)

/-- R13, R15, R16, R172: `pos`, `resets`, `segId` and the bus handle stay in the values their phase
allows. -/
def Obligations.StepKeepsSequencerRanges : Prop :=
  ∀ s t : State, SequencerInv s → step s = .next t → SequencerInv t

/-- R18, R19, R23: `diff` at least 1, no reserved palette, pinned bounds pinned, `diff` that of the bounds. -/
def Obligations.StepKeepsRangeRegisters : Prop :=
  ∀ s t : State, RangeInv s → step s = .next t → RangeInv t

/-- R40 to R45: every memory stays canonical and inside its space, and in low-res the grid outside the
80x60 corner stays 0. -/
def Obligations.StepKeepsMemoriesCanonical : Prop :=
  ∀ s t : State, MemoryInv s → step s = .next t → MemoryInv t

/-- The synchronizer's contract: whatever is acquired or shelved is a validly sequenced segment, in the
slot its identifier names. -/
def Obligations.StepKeepsSegmentsSequenced : Prop :=
  ∀ s t : State, SequencerInv s → SegmentInv s → step s = .next t → SegmentInv t

/-- R172 and R20: opens and closes in the trace alternate with the handle. -/
def Obligations.StepKeepsHandleBalance : Prop :=
  ∀ s t : State, SequencerInv s → HandleInv s → step s = .next t → HandleInv t

/-- R140 (the spec's own derivation): as many calibrations as polled datagrams with the token. -/
def Obligations.StepKeepsCalibrationCount : Prop :=
  ∀ s t : State, CalibrationInv s → step s = .next t → CalibrationInv t

/-- R53 and R134 (the order of the two events is the spec's own choice, 92_eei_decisions.md D18): one
preview for each raw frame. -/
def Obligations.StepKeepsOnePreviewPerRawFrame : Prop :=
  ∀ s t : State, PublishInv s → step s = .next t → PublishInv t

/-- No step of a state within the ranges refuses or faults, but in HALT without a host move: the faults
of the model mark only states no run reaches (log entry 8). -/
def Obligations.OnlyHaltStopsTheMachine : Prop :=
  ∀ s : State, SequencerInv s → RangeInv s →
    (∃ t, step s = .next t) ∨ (s.phase = .halt ∧ hostMove s = none ∧ step s = .fault .halted)

/-- Where an operation's operand is outside the range the spec gives its register, the meaning stops
under a name of its own; no run reaches such a state (the model's choice, log entry 8). -/
def Obligations.OutOfRangeRegistersStopByName : Prop :=
  (∀ s : State, 60 ≤ s.pos.toNat → exec .pktAccept s = .fault .posOutOfRange) ∧
  (∀ (s : State) (p : Packet) (rest : List BusAnswer), s.busIn = .packet p :: rest →
    60 ≤ s.pos.toNat → exec .pktRd s = .fault .posOutOfRange) ∧
  (∀ s : State, s.resets.toNat = 1023 → exec .pktDesync s = .fault .registerOverflow) ∧
  (∀ s : State, ¬ (1 ≤ s.segId.toNat ∧ s.segId.toNat ≤ 4) →
    exec .rsmStoreHr s = .fault .noShelfSlot) ∧
  (∀ s : State, s.cfgPalette = 3 → exec .palMap s = .fault .noPalette) ∧
  (∀ s : State, s.cfgPalette ≠ 3 → s.diff = 0 → exec .palMap s = .fault .zeroDiff)

/-- R29 (a) (the spec's own derivation): what `pktbuf` keeps of earlier passes and of the abandoned part of the current one never
reaches anything else, so the byte an unwritten place reads as (log entry 4) has no effect either. -/
def Obligations.StalePacketsAreNeverObserved : Prop :=
  ∀ s s' t : State, SequencerInv s → SameButStalePackets s s' → step s = .next t →
    ∃ t', step s' = .next t' ∧ SameButStalePackets t t'

/-! ### Encoding -/

/-- The decoder takes every well-formed operation's selector back to it, and selects only well-formed
operations. -/
def Obligations.DecodeInvertsEncode : Prop :=
  (∀ i : Instr, i.wf = true → decode (encode i) = .ok i) ∧
  ∀ (sel : Selector) (i : Instr), decode sel = .ok i → i.wf = true

/-- A few words of the table written out: a phase, a host action, a packet header, the token. That a bare
byte 1 to 14 is read as a phase code and not as a host action, and that REASM is completed with low-res,
is the model's choice (log entry 7). -/
def Obligations.TableWordsDecode : Prop :=
  decodeTableWord 8 0b0001 = some .attBegin ∧ decodeTableWord 8 0b1110 = some .pubPoll ∧
  decodeTableWord 8 0b1000 = some .rsmStoreLr ∧ decode (.host 0b11 0 0 false) = .ok .reset ∧
  decode (.packet (some 0x30140000) 20 1) = .ok (.pktSegok 3) ∧
  decode (.packet (some 0x00140000) 20 1) = .ok (.pktSegbad 0) ∧
  decode (.window 0x464643) = .ok .cmdPoll ∧ decodeTableWord 8 15 = none
end

