-- ==== Sys2Proof/Laws/State.lean ====
section
/-! SUPPORT. One lemma for each field and each named update of the state: what it leaves alone and what it writes. -/

namespace Sys2Proof.Machine

/-! ### `emit` -/

@[simp] theorem emit_phase (e : Event) (s : State) : (emit e s).phase = s.phase := rfl
@[simp] theorem emit_pos (e : Event) (s : State) : (emit e s).pos = s.pos := rfl
@[simp] theorem emit_resets (e : Event) (s : State) : (emit e s).resets = s.resets := rfl
@[simp] theorem emit_segId (e : Event) (s : State) : (emit e s).segId = s.segId := rfl
@[simp] theorem emit_invalidSegCount (e : Event) (s : State) : (emit e s).invalidSegCount = s.invalidSegCount := rfl
@[simp] theorem emit_rangeMin (e : Event) (s : State) : (emit e s).rangeMin = s.rangeMin := rfl
@[simp] theorem emit_rangeMax (e : Event) (s : State) : (emit e s).rangeMax = s.rangeMax := rfl
@[simp] theorem emit_diff (e : Event) (s : State) : (emit e s).diff = s.diff := rfl
@[simp] theorem emit_busOpen (e : Event) (s : State) : (emit e s).busOpen = s.busOpen := rfl
@[simp] theorem emit_netDegraded (e : Event) (s : State) : (emit e s).netDegraded = s.netDegraded := rfl
@[simp] theorem emit_rangeDegenerate (e : Event) (s : State) : (emit e s).rangeDegenerate = s.rangeDegenerate := rfl
@[simp] theorem emit_cfgVariant (e : Event) (s : State) : (emit e s).cfgVariant = s.cfgVariant := rfl
@[simp] theorem emit_cfgPalette (e : Event) (s : State) : (emit e s).cfgPalette = s.cfgPalette := rfl
@[simp] theorem emit_cfgAuto (e : Event) (s : State) : (emit e s).cfgAuto = s.cfgAuto := rfl
@[simp] theorem emit_cfgMin (e : Event) (s : State) : (emit e s).cfgMin = s.cfgMin := rfl
@[simp] theorem emit_cfgMax (e : Event) (s : State) : (emit e s).cfgMax = s.cfgMax := rfl
@[simp] theorem emit_cfgBusClock (e : Event) (s : State) : (emit e s).cfgBusClock = s.cfgBusClock := rfl
@[simp] theorem emit_cfgLogLevel (e : Event) (s : State) : (emit e s).cfgLogLevel = s.cfgLogLevel := rfl
@[simp] theorem emit_pktbuf (e : Event) (s : State) : (emit e s).pktbuf = s.pktbuf := rfl
@[simp] theorem emit_shelf (e : Event) (s : State) : (emit e s).shelf = s.shelf := rfl
@[simp] theorem emit_grid (e : Event) (s : State) : (emit e s).grid = s.grid := rfl
@[simp] theorem emit_preview (e : Event) (s : State) : (emit e s).preview = s.preview := rfl
@[simp] theorem emit_params (e : Event) (s : State) : (emit e s).params = s.params := rfl
@[simp] theorem emit_busIn (e : Event) (s : State) : (emit e s).busIn = s.busIn := rfl
@[simp] theorem emit_pollIn (e : Event) (s : State) : (emit e s).pollIn = s.pollIn := rfl
@[simp] theorem emit_hostIn (e : Event) (s : State) : (emit e s).hostIn = s.hostIn := rfl
@[simp] theorem emit_trace (e : Event) (s : State) : (emit e s).trace = s.trace ++ [e] := rfl
@[simp] theorem emit_causes (e : Event) (s : State) : (emit e s).causes = s.causes := rfl
@[simp] theorem emit_calls (e : Event) (s : State) : (emit e s).calls = s.calls := rfl
@[simp] theorem emit_replies (e : Event) (s : State) : (emit e s).replies = s.replies := rfl

/-! ### `raiseCause` -/

@[simp] theorem raiseCause_phase (c : Cause) (s : State) : (raiseCause c s).phase = s.phase := rfl
@[simp] theorem raiseCause_pos (c : Cause) (s : State) : (raiseCause c s).pos = s.pos := rfl
@[simp] theorem raiseCause_resets (c : Cause) (s : State) : (raiseCause c s).resets = s.resets := rfl
@[simp] theorem raiseCause_segId (c : Cause) (s : State) : (raiseCause c s).segId = s.segId := rfl
@[simp] theorem raiseCause_invalidSegCount (c : Cause) (s : State) : (raiseCause c s).invalidSegCount = s.invalidSegCount := rfl
@[simp] theorem raiseCause_rangeMin (c : Cause) (s : State) : (raiseCause c s).rangeMin = s.rangeMin := rfl
@[simp] theorem raiseCause_rangeMax (c : Cause) (s : State) : (raiseCause c s).rangeMax = s.rangeMax := rfl
@[simp] theorem raiseCause_diff (c : Cause) (s : State) : (raiseCause c s).diff = s.diff := rfl
@[simp] theorem raiseCause_busOpen (c : Cause) (s : State) : (raiseCause c s).busOpen = s.busOpen := rfl
@[simp] theorem raiseCause_netDegraded (c : Cause) (s : State) : (raiseCause c s).netDegraded = s.netDegraded := rfl
@[simp] theorem raiseCause_rangeDegenerate (c : Cause) (s : State) : (raiseCause c s).rangeDegenerate = s.rangeDegenerate := rfl
@[simp] theorem raiseCause_cfgVariant (c : Cause) (s : State) : (raiseCause c s).cfgVariant = s.cfgVariant := rfl
@[simp] theorem raiseCause_cfgPalette (c : Cause) (s : State) : (raiseCause c s).cfgPalette = s.cfgPalette := rfl
@[simp] theorem raiseCause_cfgAuto (c : Cause) (s : State) : (raiseCause c s).cfgAuto = s.cfgAuto := rfl
@[simp] theorem raiseCause_cfgMin (c : Cause) (s : State) : (raiseCause c s).cfgMin = s.cfgMin := rfl
@[simp] theorem raiseCause_cfgMax (c : Cause) (s : State) : (raiseCause c s).cfgMax = s.cfgMax := rfl
@[simp] theorem raiseCause_cfgBusClock (c : Cause) (s : State) : (raiseCause c s).cfgBusClock = s.cfgBusClock := rfl
@[simp] theorem raiseCause_cfgLogLevel (c : Cause) (s : State) : (raiseCause c s).cfgLogLevel = s.cfgLogLevel := rfl
@[simp] theorem raiseCause_pktbuf (c : Cause) (s : State) : (raiseCause c s).pktbuf = s.pktbuf := rfl
@[simp] theorem raiseCause_shelf (c : Cause) (s : State) : (raiseCause c s).shelf = s.shelf := rfl
@[simp] theorem raiseCause_grid (c : Cause) (s : State) : (raiseCause c s).grid = s.grid := rfl
@[simp] theorem raiseCause_preview (c : Cause) (s : State) : (raiseCause c s).preview = s.preview := rfl
@[simp] theorem raiseCause_params (c : Cause) (s : State) : (raiseCause c s).params = s.params := rfl
@[simp] theorem raiseCause_busIn (c : Cause) (s : State) : (raiseCause c s).busIn = s.busIn := rfl
@[simp] theorem raiseCause_pollIn (c : Cause) (s : State) : (raiseCause c s).pollIn = s.pollIn := rfl
@[simp] theorem raiseCause_hostIn (c : Cause) (s : State) : (raiseCause c s).hostIn = s.hostIn := rfl
@[simp] theorem raiseCause_trace (c : Cause) (s : State) : (raiseCause c s).trace = s.trace := rfl
@[simp] theorem raiseCause_causes (c : Cause) (s : State) : (raiseCause c s).causes = s.causes ++ [c] := rfl
@[simp] theorem raiseCause_calls (c : Cause) (s : State) : (raiseCause c s).calls = s.calls := rfl
@[simp] theorem raiseCause_replies (c : Cause) (s : State) : (raiseCause c s).replies = s.replies := rfl

/-! ### `logCall` -/

@[simp] theorem logCall_phase (c : Call) (s : State) : (logCall c s).phase = s.phase := rfl
@[simp] theorem logCall_pos (c : Call) (s : State) : (logCall c s).pos = s.pos := rfl
@[simp] theorem logCall_resets (c : Call) (s : State) : (logCall c s).resets = s.resets := rfl
@[simp] theorem logCall_segId (c : Call) (s : State) : (logCall c s).segId = s.segId := rfl
@[simp] theorem logCall_invalidSegCount (c : Call) (s : State) : (logCall c s).invalidSegCount = s.invalidSegCount := rfl
@[simp] theorem logCall_rangeMin (c : Call) (s : State) : (logCall c s).rangeMin = s.rangeMin := rfl
@[simp] theorem logCall_rangeMax (c : Call) (s : State) : (logCall c s).rangeMax = s.rangeMax := rfl
@[simp] theorem logCall_diff (c : Call) (s : State) : (logCall c s).diff = s.diff := rfl
@[simp] theorem logCall_busOpen (c : Call) (s : State) : (logCall c s).busOpen = s.busOpen := rfl
@[simp] theorem logCall_netDegraded (c : Call) (s : State) : (logCall c s).netDegraded = s.netDegraded := rfl
@[simp] theorem logCall_rangeDegenerate (c : Call) (s : State) : (logCall c s).rangeDegenerate = s.rangeDegenerate := rfl
@[simp] theorem logCall_cfgVariant (c : Call) (s : State) : (logCall c s).cfgVariant = s.cfgVariant := rfl
@[simp] theorem logCall_cfgPalette (c : Call) (s : State) : (logCall c s).cfgPalette = s.cfgPalette := rfl
@[simp] theorem logCall_cfgAuto (c : Call) (s : State) : (logCall c s).cfgAuto = s.cfgAuto := rfl
@[simp] theorem logCall_cfgMin (c : Call) (s : State) : (logCall c s).cfgMin = s.cfgMin := rfl
@[simp] theorem logCall_cfgMax (c : Call) (s : State) : (logCall c s).cfgMax = s.cfgMax := rfl
@[simp] theorem logCall_cfgBusClock (c : Call) (s : State) : (logCall c s).cfgBusClock = s.cfgBusClock := rfl
@[simp] theorem logCall_cfgLogLevel (c : Call) (s : State) : (logCall c s).cfgLogLevel = s.cfgLogLevel := rfl
@[simp] theorem logCall_pktbuf (c : Call) (s : State) : (logCall c s).pktbuf = s.pktbuf := rfl
@[simp] theorem logCall_shelf (c : Call) (s : State) : (logCall c s).shelf = s.shelf := rfl
@[simp] theorem logCall_grid (c : Call) (s : State) : (logCall c s).grid = s.grid := rfl
@[simp] theorem logCall_preview (c : Call) (s : State) : (logCall c s).preview = s.preview := rfl
@[simp] theorem logCall_params (c : Call) (s : State) : (logCall c s).params = s.params := rfl
@[simp] theorem logCall_busIn (c : Call) (s : State) : (logCall c s).busIn = s.busIn := rfl
@[simp] theorem logCall_pollIn (c : Call) (s : State) : (logCall c s).pollIn = s.pollIn := rfl
@[simp] theorem logCall_hostIn (c : Call) (s : State) : (logCall c s).hostIn = s.hostIn := rfl
@[simp] theorem logCall_trace (c : Call) (s : State) : (logCall c s).trace = s.trace := rfl
@[simp] theorem logCall_causes (c : Call) (s : State) : (logCall c s).causes = s.causes := rfl
@[simp] theorem logCall_calls (c : Call) (s : State) : (logCall c s).calls = s.calls ++ [c] := rfl
@[simp] theorem logCall_replies (c : Call) (s : State) : (logCall c s).replies = s.replies := rfl

/-! ### `goto` -/

@[simp] theorem goto_phase (p : Phase) (s : State) : (goto p s).phase = p := rfl
@[simp] theorem goto_pos (p : Phase) (s : State) : (goto p s).pos = s.pos := rfl
@[simp] theorem goto_resets (p : Phase) (s : State) : (goto p s).resets = s.resets := rfl
@[simp] theorem goto_segId (p : Phase) (s : State) : (goto p s).segId = s.segId := rfl
@[simp] theorem goto_invalidSegCount (p : Phase) (s : State) : (goto p s).invalidSegCount = s.invalidSegCount := rfl
@[simp] theorem goto_rangeMin (p : Phase) (s : State) : (goto p s).rangeMin = s.rangeMin := rfl
@[simp] theorem goto_rangeMax (p : Phase) (s : State) : (goto p s).rangeMax = s.rangeMax := rfl
@[simp] theorem goto_diff (p : Phase) (s : State) : (goto p s).diff = s.diff := rfl
@[simp] theorem goto_busOpen (p : Phase) (s : State) : (goto p s).busOpen = s.busOpen := rfl
@[simp] theorem goto_netDegraded (p : Phase) (s : State) : (goto p s).netDegraded = s.netDegraded := rfl
@[simp] theorem goto_rangeDegenerate (p : Phase) (s : State) : (goto p s).rangeDegenerate = s.rangeDegenerate := rfl
@[simp] theorem goto_cfgVariant (p : Phase) (s : State) : (goto p s).cfgVariant = s.cfgVariant := rfl
@[simp] theorem goto_cfgPalette (p : Phase) (s : State) : (goto p s).cfgPalette = s.cfgPalette := rfl
@[simp] theorem goto_cfgAuto (p : Phase) (s : State) : (goto p s).cfgAuto = s.cfgAuto := rfl
@[simp] theorem goto_cfgMin (p : Phase) (s : State) : (goto p s).cfgMin = s.cfgMin := rfl
@[simp] theorem goto_cfgMax (p : Phase) (s : State) : (goto p s).cfgMax = s.cfgMax := rfl
@[simp] theorem goto_cfgBusClock (p : Phase) (s : State) : (goto p s).cfgBusClock = s.cfgBusClock := rfl
@[simp] theorem goto_cfgLogLevel (p : Phase) (s : State) : (goto p s).cfgLogLevel = s.cfgLogLevel := rfl
@[simp] theorem goto_pktbuf (p : Phase) (s : State) : (goto p s).pktbuf = s.pktbuf := rfl
@[simp] theorem goto_shelf (p : Phase) (s : State) : (goto p s).shelf = s.shelf := rfl
@[simp] theorem goto_grid (p : Phase) (s : State) : (goto p s).grid = s.grid := rfl
@[simp] theorem goto_preview (p : Phase) (s : State) : (goto p s).preview = s.preview := rfl
@[simp] theorem goto_params (p : Phase) (s : State) : (goto p s).params = s.params := rfl
@[simp] theorem goto_busIn (p : Phase) (s : State) : (goto p s).busIn = s.busIn := rfl
@[simp] theorem goto_pollIn (p : Phase) (s : State) : (goto p s).pollIn = s.pollIn := rfl
@[simp] theorem goto_hostIn (p : Phase) (s : State) : (goto p s).hostIn = s.hostIn := rfl
@[simp] theorem goto_trace (p : Phase) (s : State) : (goto p s).trace = s.trace := rfl
@[simp] theorem goto_causes (p : Phase) (s : State) : (goto p s).causes = s.causes := rfl
@[simp] theorem goto_calls (p : Phase) (s : State) : (goto p s).calls = s.calls := rfl
@[simp] theorem goto_replies (p : Phase) (s : State) : (goto p s).replies = s.replies := rfl

/-! ### `timerWait` -/

@[simp] theorem timerWait_phase (n : Nat) (s : State) : (timerWait n s).phase = s.phase := rfl
@[simp] theorem timerWait_pos (n : Nat) (s : State) : (timerWait n s).pos = s.pos := rfl
@[simp] theorem timerWait_resets (n : Nat) (s : State) : (timerWait n s).resets = s.resets := rfl
@[simp] theorem timerWait_segId (n : Nat) (s : State) : (timerWait n s).segId = s.segId := rfl
@[simp] theorem timerWait_invalidSegCount (n : Nat) (s : State) : (timerWait n s).invalidSegCount = s.invalidSegCount := rfl
@[simp] theorem timerWait_rangeMin (n : Nat) (s : State) : (timerWait n s).rangeMin = s.rangeMin := rfl
@[simp] theorem timerWait_rangeMax (n : Nat) (s : State) : (timerWait n s).rangeMax = s.rangeMax := rfl
@[simp] theorem timerWait_diff (n : Nat) (s : State) : (timerWait n s).diff = s.diff := rfl
@[simp] theorem timerWait_busOpen (n : Nat) (s : State) : (timerWait n s).busOpen = s.busOpen := rfl
@[simp] theorem timerWait_netDegraded (n : Nat) (s : State) : (timerWait n s).netDegraded = s.netDegraded := rfl
@[simp] theorem timerWait_rangeDegenerate (n : Nat) (s : State) : (timerWait n s).rangeDegenerate = s.rangeDegenerate := rfl
@[simp] theorem timerWait_cfgVariant (n : Nat) (s : State) : (timerWait n s).cfgVariant = s.cfgVariant := rfl
@[simp] theorem timerWait_cfgPalette (n : Nat) (s : State) : (timerWait n s).cfgPalette = s.cfgPalette := rfl
@[simp] theorem timerWait_cfgAuto (n : Nat) (s : State) : (timerWait n s).cfgAuto = s.cfgAuto := rfl
@[simp] theorem timerWait_cfgMin (n : Nat) (s : State) : (timerWait n s).cfgMin = s.cfgMin := rfl
@[simp] theorem timerWait_cfgMax (n : Nat) (s : State) : (timerWait n s).cfgMax = s.cfgMax := rfl
@[simp] theorem timerWait_cfgBusClock (n : Nat) (s : State) : (timerWait n s).cfgBusClock = s.cfgBusClock := rfl
@[simp] theorem timerWait_cfgLogLevel (n : Nat) (s : State) : (timerWait n s).cfgLogLevel = s.cfgLogLevel := rfl
@[simp] theorem timerWait_pktbuf (n : Nat) (s : State) : (timerWait n s).pktbuf = s.pktbuf := rfl
@[simp] theorem timerWait_shelf (n : Nat) (s : State) : (timerWait n s).shelf = s.shelf := rfl
@[simp] theorem timerWait_grid (n : Nat) (s : State) : (timerWait n s).grid = s.grid := rfl
@[simp] theorem timerWait_preview (n : Nat) (s : State) : (timerWait n s).preview = s.preview := rfl
@[simp] theorem timerWait_params (n : Nat) (s : State) : (timerWait n s).params = s.params := rfl
@[simp] theorem timerWait_busIn (n : Nat) (s : State) : (timerWait n s).busIn = s.busIn := rfl
@[simp] theorem timerWait_pollIn (n : Nat) (s : State) : (timerWait n s).pollIn = s.pollIn := rfl
@[simp] theorem timerWait_hostIn (n : Nat) (s : State) : (timerWait n s).hostIn = s.hostIn := rfl
@[simp] theorem timerWait_trace (n : Nat) (s : State) : (timerWait n s).trace = s.trace := rfl
@[simp] theorem timerWait_causes (n : Nat) (s : State) : (timerWait n s).causes = s.causes := rfl
@[simp] theorem timerWait_calls (n : Nat) (s : State) : (timerWait n s).calls = s.calls ++ [.timerWait n] := rfl
@[simp] theorem timerWait_replies (n : Nat) (s : State) : (timerWait n s).replies = s.replies := rfl

/-! ### `storePacket` -/

@[simp] theorem storePacket_phase (p : Packet) (s : State) : (storePacket p s).phase = s.phase := rfl
@[simp] theorem storePacket_pos (p : Packet) (s : State) : (storePacket p s).pos = s.pos := rfl
@[simp] theorem storePacket_resets (p : Packet) (s : State) : (storePacket p s).resets = s.resets := rfl
@[simp] theorem storePacket_segId (p : Packet) (s : State) : (storePacket p s).segId = s.segId := rfl
@[simp] theorem storePacket_invalidSegCount (p : Packet) (s : State) : (storePacket p s).invalidSegCount = s.invalidSegCount := rfl
@[simp] theorem storePacket_rangeMin (p : Packet) (s : State) : (storePacket p s).rangeMin = s.rangeMin := rfl
@[simp] theorem storePacket_rangeMax (p : Packet) (s : State) : (storePacket p s).rangeMax = s.rangeMax := rfl
@[simp] theorem storePacket_diff (p : Packet) (s : State) : (storePacket p s).diff = s.diff := rfl
@[simp] theorem storePacket_busOpen (p : Packet) (s : State) : (storePacket p s).busOpen = s.busOpen := rfl
@[simp] theorem storePacket_netDegraded (p : Packet) (s : State) : (storePacket p s).netDegraded = s.netDegraded := rfl
@[simp] theorem storePacket_rangeDegenerate (p : Packet) (s : State) : (storePacket p s).rangeDegenerate = s.rangeDegenerate := rfl
@[simp] theorem storePacket_cfgVariant (p : Packet) (s : State) : (storePacket p s).cfgVariant = s.cfgVariant := rfl
@[simp] theorem storePacket_cfgPalette (p : Packet) (s : State) : (storePacket p s).cfgPalette = s.cfgPalette := rfl
@[simp] theorem storePacket_cfgAuto (p : Packet) (s : State) : (storePacket p s).cfgAuto = s.cfgAuto := rfl
@[simp] theorem storePacket_cfgMin (p : Packet) (s : State) : (storePacket p s).cfgMin = s.cfgMin := rfl
@[simp] theorem storePacket_cfgMax (p : Packet) (s : State) : (storePacket p s).cfgMax = s.cfgMax := rfl
@[simp] theorem storePacket_cfgBusClock (p : Packet) (s : State) : (storePacket p s).cfgBusClock = s.cfgBusClock := rfl
@[simp] theorem storePacket_cfgLogLevel (p : Packet) (s : State) : (storePacket p s).cfgLogLevel = s.cfgLogLevel := rfl
@[simp] theorem storePacket_pktbuf (p : Packet) (s : State) : (storePacket p s).pktbuf = writeFrom 0 s.pktbuf (164 * s.pos.toNat) p.toList := rfl
@[simp] theorem storePacket_shelf (p : Packet) (s : State) : (storePacket p s).shelf = s.shelf := rfl
@[simp] theorem storePacket_grid (p : Packet) (s : State) : (storePacket p s).grid = s.grid := rfl
@[simp] theorem storePacket_preview (p : Packet) (s : State) : (storePacket p s).preview = s.preview := rfl
@[simp] theorem storePacket_params (p : Packet) (s : State) : (storePacket p s).params = s.params := rfl
@[simp] theorem storePacket_busIn (p : Packet) (s : State) : (storePacket p s).busIn = s.busIn := rfl
@[simp] theorem storePacket_pollIn (p : Packet) (s : State) : (storePacket p s).pollIn = s.pollIn := rfl
@[simp] theorem storePacket_hostIn (p : Packet) (s : State) : (storePacket p s).hostIn = s.hostIn := rfl
@[simp] theorem storePacket_trace (p : Packet) (s : State) : (storePacket p s).trace = s.trace := rfl
@[simp] theorem storePacket_causes (p : Packet) (s : State) : (storePacket p s).causes = s.causes := rfl
@[simp] theorem storePacket_calls (p : Packet) (s : State) : (storePacket p s).calls = s.calls := rfl
@[simp] theorem storePacket_replies (p : Packet) (s : State) : (storePacket p s).replies = s.replies := rfl

/-! ### `storeSegment` -/

@[simp] theorem storeSegment_phase (k : Nat) (s : State) : (storeSegment k s).phase = s.phase := rfl
@[simp] theorem storeSegment_pos (k : Nat) (s : State) : (storeSegment k s).pos = s.pos := rfl
@[simp] theorem storeSegment_resets (k : Nat) (s : State) : (storeSegment k s).resets = s.resets := rfl
@[simp] theorem storeSegment_segId (k : Nat) (s : State) : (storeSegment k s).segId = s.segId := rfl
@[simp] theorem storeSegment_invalidSegCount (k : Nat) (s : State) : (storeSegment k s).invalidSegCount = s.invalidSegCount := rfl
@[simp] theorem storeSegment_rangeMin (k : Nat) (s : State) : (storeSegment k s).rangeMin = s.rangeMin := rfl
@[simp] theorem storeSegment_rangeMax (k : Nat) (s : State) : (storeSegment k s).rangeMax = s.rangeMax := rfl
@[simp] theorem storeSegment_diff (k : Nat) (s : State) : (storeSegment k s).diff = s.diff := rfl
@[simp] theorem storeSegment_busOpen (k : Nat) (s : State) : (storeSegment k s).busOpen = s.busOpen := rfl
@[simp] theorem storeSegment_netDegraded (k : Nat) (s : State) : (storeSegment k s).netDegraded = s.netDegraded := rfl
@[simp] theorem storeSegment_rangeDegenerate (k : Nat) (s : State) : (storeSegment k s).rangeDegenerate = s.rangeDegenerate := rfl
@[simp] theorem storeSegment_cfgVariant (k : Nat) (s : State) : (storeSegment k s).cfgVariant = s.cfgVariant := rfl
@[simp] theorem storeSegment_cfgPalette (k : Nat) (s : State) : (storeSegment k s).cfgPalette = s.cfgPalette := rfl
@[simp] theorem storeSegment_cfgAuto (k : Nat) (s : State) : (storeSegment k s).cfgAuto = s.cfgAuto := rfl
@[simp] theorem storeSegment_cfgMin (k : Nat) (s : State) : (storeSegment k s).cfgMin = s.cfgMin := rfl
@[simp] theorem storeSegment_cfgMax (k : Nat) (s : State) : (storeSegment k s).cfgMax = s.cfgMax := rfl
@[simp] theorem storeSegment_cfgBusClock (k : Nat) (s : State) : (storeSegment k s).cfgBusClock = s.cfgBusClock := rfl
@[simp] theorem storeSegment_cfgLogLevel (k : Nat) (s : State) : (storeSegment k s).cfgLogLevel = s.cfgLogLevel := rfl
@[simp] theorem storeSegment_pktbuf (k : Nat) (s : State) : (storeSegment k s).pktbuf = s.pktbuf := rfl
@[simp] theorem storeSegment_shelf (k : Nat) (s : State) : (storeSegment k s).shelf = s.shelf.setIfInBounds k (below 9840 s.pktbuf) := rfl
@[simp] theorem storeSegment_grid (k : Nat) (s : State) : (storeSegment k s).grid = s.grid := rfl
@[simp] theorem storeSegment_preview (k : Nat) (s : State) : (storeSegment k s).preview = s.preview := rfl
@[simp] theorem storeSegment_params (k : Nat) (s : State) : (storeSegment k s).params = s.params := rfl
@[simp] theorem storeSegment_busIn (k : Nat) (s : State) : (storeSegment k s).busIn = s.busIn := rfl
@[simp] theorem storeSegment_pollIn (k : Nat) (s : State) : (storeSegment k s).pollIn = s.pollIn := rfl
@[simp] theorem storeSegment_hostIn (k : Nat) (s : State) : (storeSegment k s).hostIn = s.hostIn := rfl
@[simp] theorem storeSegment_trace (k : Nat) (s : State) : (storeSegment k s).trace = s.trace := rfl
@[simp] theorem storeSegment_causes (k : Nat) (s : State) : (storeSegment k s).causes = s.causes := rfl
@[simp] theorem storeSegment_calls (k : Nat) (s : State) : (storeSegment k s).calls = s.calls := rfl
@[simp] theorem storeSegment_replies (k : Nat) (s : State) : (storeSegment k s).replies = s.replies := rfl

/-! ### `netPoll` and `pollCommand` -/

/-- Everything a poll does: one answer taken and recorded, at most one event. -/
theorem pollCommand_eq (s : State) :
    pollCommand s = { s with
      pollIn := s.pollIn.tail
      calls := s.calls ++ [.netPoll (pollAnswer s)]
      trace := s.trace ++ polledEvents s } := by
  cases h : s.pollIn with
  | nil => simp [pollCommand, netPoll, polledEvents, pollAnswer, h, logCall]
  | cons a rest =>
    cases a with
    | none => simp [pollCommand, netPoll, polledEvents, pollAnswer, h, logCall]
    | some payload =>
      by_cases ht : hasToken s.params.cmdMaxLen payload <;>
        simp [pollCommand, netPoll, polledEvents, pollAnswer, h, logCall, emit, ht]

@[simp] theorem pollCommand_phase (s : State) : (pollCommand s).phase = s.phase := by rw [pollCommand_eq]
@[simp] theorem pollCommand_pos (s : State) : (pollCommand s).pos = s.pos := by rw [pollCommand_eq]
@[simp] theorem pollCommand_resets (s : State) : (pollCommand s).resets = s.resets := by rw [pollCommand_eq]
@[simp] theorem pollCommand_segId (s : State) : (pollCommand s).segId = s.segId := by rw [pollCommand_eq]
@[simp] theorem pollCommand_invalidSegCount (s : State) : (pollCommand s).invalidSegCount = s.invalidSegCount := by rw [pollCommand_eq]
@[simp] theorem pollCommand_rangeMin (s : State) : (pollCommand s).rangeMin = s.rangeMin := by rw [pollCommand_eq]
@[simp] theorem pollCommand_rangeMax (s : State) : (pollCommand s).rangeMax = s.rangeMax := by rw [pollCommand_eq]
@[simp] theorem pollCommand_diff (s : State) : (pollCommand s).diff = s.diff := by rw [pollCommand_eq]
@[simp] theorem pollCommand_busOpen (s : State) : (pollCommand s).busOpen = s.busOpen := by rw [pollCommand_eq]
@[simp] theorem pollCommand_netDegraded (s : State) : (pollCommand s).netDegraded = s.netDegraded := by rw [pollCommand_eq]
@[simp] theorem pollCommand_rangeDegenerate (s : State) : (pollCommand s).rangeDegenerate = s.rangeDegenerate := by rw [pollCommand_eq]
@[simp] theorem pollCommand_cfgVariant (s : State) : (pollCommand s).cfgVariant = s.cfgVariant := by rw [pollCommand_eq]
@[simp] theorem pollCommand_cfgPalette (s : State) : (pollCommand s).cfgPalette = s.cfgPalette := by rw [pollCommand_eq]
@[simp] theorem pollCommand_cfgAuto (s : State) : (pollCommand s).cfgAuto = s.cfgAuto := by rw [pollCommand_eq]
@[simp] theorem pollCommand_cfgMin (s : State) : (pollCommand s).cfgMin = s.cfgMin := by rw [pollCommand_eq]
@[simp] theorem pollCommand_cfgMax (s : State) : (pollCommand s).cfgMax = s.cfgMax := by rw [pollCommand_eq]
@[simp] theorem pollCommand_cfgBusClock (s : State) : (pollCommand s).cfgBusClock = s.cfgBusClock := by rw [pollCommand_eq]
@[simp] theorem pollCommand_cfgLogLevel (s : State) : (pollCommand s).cfgLogLevel = s.cfgLogLevel := by rw [pollCommand_eq]
@[simp] theorem pollCommand_pktbuf (s : State) : (pollCommand s).pktbuf = s.pktbuf := by rw [pollCommand_eq]
@[simp] theorem pollCommand_shelf (s : State) : (pollCommand s).shelf = s.shelf := by rw [pollCommand_eq]
@[simp] theorem pollCommand_grid (s : State) : (pollCommand s).grid = s.grid := by rw [pollCommand_eq]
@[simp] theorem pollCommand_preview (s : State) : (pollCommand s).preview = s.preview := by rw [pollCommand_eq]
@[simp] theorem pollCommand_params (s : State) : (pollCommand s).params = s.params := by rw [pollCommand_eq]
@[simp] theorem pollCommand_busIn (s : State) : (pollCommand s).busIn = s.busIn := by rw [pollCommand_eq]
@[simp] theorem pollCommand_pollIn (s : State) : (pollCommand s).pollIn = s.pollIn.tail := by rw [pollCommand_eq]
@[simp] theorem pollCommand_hostIn (s : State) : (pollCommand s).hostIn = s.hostIn := by rw [pollCommand_eq]
@[simp] theorem pollCommand_trace (s : State) : (pollCommand s).trace = s.trace ++ polledEvents s := by rw [pollCommand_eq]
@[simp] theorem pollCommand_causes (s : State) : (pollCommand s).causes = s.causes := by rw [pollCommand_eq]
@[simp] theorem pollCommand_calls (s : State) : (pollCommand s).calls = s.calls ++ [.netPoll (pollAnswer s)] := by rw [pollCommand_eq]
@[simp] theorem pollCommand_replies (s : State) : (pollCommand s).replies = s.replies := by rw [pollCommand_eq]

/-! ### `State.resetWith` -/

@[simp] theorem resetWith_phase (p : Params) : (State.resetWith p).phase = .idle := rfl
@[simp] theorem resetWith_pos (p : Params) : (State.resetWith p).pos = 0 := rfl
@[simp] theorem resetWith_resets (p : Params) : (State.resetWith p).resets = 0 := rfl
@[simp] theorem resetWith_segId (p : Params) : (State.resetWith p).segId = 0 := rfl
@[simp] theorem resetWith_invalidSegCount (p : Params) : (State.resetWith p).invalidSegCount = 0 := rfl
@[simp] theorem resetWith_rangeMin (p : Params) : (State.resetWith p).rangeMin = 0 := rfl
@[simp] theorem resetWith_rangeMax (p : Params) : (State.resetWith p).rangeMax = 65535 := rfl
@[simp] theorem resetWith_diff (p : Params) : (State.resetWith p).diff = 65535 := rfl
@[simp] theorem resetWith_busOpen (p : Params) : (State.resetWith p).busOpen = false := rfl
@[simp] theorem resetWith_netDegraded (p : Params) : (State.resetWith p).netDegraded = false := rfl
@[simp] theorem resetWith_rangeDegenerate (p : Params) : (State.resetWith p).rangeDegenerate = false := rfl
@[simp] theorem resetWith_cfgVariant (p : Params) : (State.resetWith p).cfgVariant = 0 := rfl
@[simp] theorem resetWith_cfgPalette (p : Params) : (State.resetWith p).cfgPalette = 0 := rfl
@[simp] theorem resetWith_cfgAuto (p : Params) : (State.resetWith p).cfgAuto = 3 := rfl
@[simp] theorem resetWith_cfgMin (p : Params) : (State.resetWith p).cfgMin = 0 := rfl
@[simp] theorem resetWith_cfgMax (p : Params) : (State.resetWith p).cfgMax = 65535 := rfl
@[simp] theorem resetWith_cfgBusClock (p : Params) : (State.resetWith p).cfgBusClock = p.busClockDefault := rfl
@[simp] theorem resetWith_cfgLogLevel (p : Params) : (State.resetWith p).cfgLogLevel = 0 := rfl
@[simp] theorem resetWith_pktbuf (p : Params) : (State.resetWith p).pktbuf = [] := rfl
@[simp] theorem resetWith_shelf (p : Params) : (State.resetWith p).shelf = Vector.replicate 4 [] := rfl
@[simp] theorem resetWith_grid (p : Params) : (State.resetWith p).grid = [] := rfl
@[simp] theorem resetWith_preview (p : Params) : (State.resetWith p).preview = [] := rfl
@[simp] theorem resetWith_params (p : Params) : (State.resetWith p).params = p := rfl
@[simp] theorem resetWith_busIn (p : Params) : (State.resetWith p).busIn = [] := rfl
@[simp] theorem resetWith_pollIn (p : Params) : (State.resetWith p).pollIn = [] := rfl
@[simp] theorem resetWith_hostIn (p : Params) : (State.resetWith p).hostIn = [] := rfl
@[simp] theorem resetWith_trace (p : Params) : (State.resetWith p).trace = [] := rfl
@[simp] theorem resetWith_causes (p : Params) : (State.resetWith p).causes = [] := rfl
@[simp] theorem resetWith_calls (p : Params) : (State.resetWith p).calls = [] := rfl
@[simp] theorem resetWith_replies (p : Params) : (State.resetWith p).replies = [] := rfl

end Sys2Proof.Machine
end

