-- ==== Sys2Proof/Laws/Memory.lean ====
section
/-! SUPPORT. The laws of the memory operations: read after write, frames, the canonical form. -/

namespace Sys2Proof.Machine

@[simp] theorem readAt_nil {α : Type} (d : α) (x : Nat) : readAt d [] x = d := rfl

theorem readAt_cons {α : Type} (d : α) (a : Nat) (v : α) (t : Mem α) (x : Nat) :
    readAt d ((a, v) :: t) x = if a = x then v else readAt d t x := rfl

theorem readAt_filter {α : Type} (d : α) (m : Mem α) (p : Nat → Bool) (y : Nat) :
    readAt d (m.filter fun c => p c.1) y = if p y then readAt d m y else d := by
  induction m with
  | nil => simp
  | cons c t ih =>
    obtain ⟨a, v⟩ := c
    by_cases ha : p a
    · rw [List.filter_cons_of_pos (by simpa using ha), readAt_cons, readAt_cons, ih]
      by_cases hy : a = y
      · subst hy; simp [ha]
      · simp [hy]
    · rw [List.filter_cons_of_neg (by simpa using ha), readAt_cons, ih]
      by_cases hy : a = y
      · subst hy; simp [ha]
      · simp [hy]

theorem readAt_insertCell {α : Type} (d : α) (x : Nat) (v : α) (m : Mem α) (hx : ∀ c ∈ m, c.1 ≠ x) (y : Nat) :
    readAt d (insertCell x v m) y = if y = x then v else readAt d m y := by
  induction m with
  | nil => simp only [insertCell, readAt, eq_comm]
  | cons c t ih =>
    obtain ⟨a, w⟩ := c
    have hax : a ≠ x := hx (a, w) (by simp)
    have iht := ih fun c hc => hx c (by simp [hc])
    by_cases hlt : x < a
    · simp only [insertCell, if_pos hlt, readAt_cons]
      by_cases hy : y = x
      · simp [hy]
      · simp [hy, Ne.symm hy]
    · simp only [insertCell, if_neg hlt, readAt_cons, iht]
      by_cases hy : y = x
      · subst hy; simp [hax]
      · simp [hy]

/-- Read after write: the written index holds the value, every other index is unchanged, in any
memory whether canonical or not (20_memory.md R52). -/
theorem readAt_writeAt {α : Type} [DecidableEq α] (d : α) (m : Mem α) (x : Nat) (v : α) (y : Nat) :
    readAt d (writeAt d m x v) y = if y = x then v else readAt d m y := by
  have hf : ∀ z, readAt d (m.filter fun c => c.1 ≠ x) z = if z = x then d else readAt d m z := by
    intro z
    have := readAt_filter d m (fun a => decide (a ≠ x)) z
    rw [this]
    by_cases hz : z = x <;> simp [hz]
  unfold writeAt
  by_cases hv : v = d
  · simp only [hv, if_true, hf]
  · simp only [hv, if_false]
    rw [readAt_insertCell d x v _ (by simp), hf]
    by_cases hy : y = x <;> simp [hy]

@[simp] theorem readAt_writeAt_same {α : Type} [DecidableEq α] (d : α) (m : Mem α) (x : Nat) (v : α) :
    readAt d (writeAt d m x v) x = v := by simp [readAt_writeAt]

theorem readAt_writeAt_other {α : Type} [DecidableEq α] (d : α) (m : Mem α) {x y : Nat} (v : α) (h : y ≠ x) :
    readAt d (writeAt d m x v) y = readAt d m y := by simp [readAt_writeAt, h]

/-- What a block write does, index by index. -/
theorem readAt_writeFrom {α : Type} [DecidableEq α] (d : α) (vs : List α) (m : Mem α) (x y : Nat) :
    readAt d (writeFrom d m x vs) y =
      if x ≤ y ∧ y < x + vs.length then vs.getD (y - x) d else readAt d m y := by
  induction vs generalizing m x with
  | nil => simp only [writeFrom, List.length_nil]; rw [if_neg (by omega)]
  | cons v vs ih =>
    simp only [writeFrom, ih, readAt_writeAt, List.length_cons]
    by_cases h1 : x + 1 ≤ y ∧ y < x + 1 + vs.length
    · rw [if_pos h1, if_pos (by omega)]
      obtain ⟨k, rfl⟩ : ∃ k, y = x + 1 + k := ⟨y - (x + 1), by omega⟩
      have e1 : x + 1 + k - (x + 1) = k := by omega
      have e2 : x + 1 + k - x = k + 1 := by omega
      rw [e1, e2, List.getD_cons_succ]
    · rw [if_neg h1]
      by_cases h2 : y = x
      · subst h2
        rw [if_pos rfl, if_pos (by omega), Nat.sub_self, List.getD_cons_zero]
      · rw [if_neg h2, if_neg (by omega)]

theorem readAt_below {α : Type} (d : α) (n : Nat) (m : Mem α) (y : Nat) :
    readAt d (below n m) y = if y < n then readAt d m y else d := by
  have := readAt_filter d m (fun a => decide (a < n)) y
  simpa [below] using this

/-! ### The canonical form -/

theorem memWf_iff {α : Type} [DecidableEq α] (d : α) (n : Nat) (m : Mem α) :
    memWf d n m = true ↔ m.Pairwise (fun c c' => c.1 < c'.1) ∧ ∀ c ∈ m, c.1 < n ∧ c.2 ≠ d := by
  simp [memWf]

@[simp] theorem memWf_nil {α : Type} [DecidableEq α] (d : α) (n : Nat) : memWf d n [] = true := by simp [memWf_iff]

theorem mem_insertCell {α : Type} (x : Nat) (v : α) (m : Mem α) (c : Nat × α) :
    c ∈ insertCell x v m ↔ c = (x, v) ∨ c ∈ m := by
  induction m with
  | nil => simp [insertCell]
  | cons e t ih =>
    obtain ⟨a, w⟩ := e
    by_cases h : x < a
    · simp [insertCell, h]
    · simp only [insertCell, h, if_false, List.mem_cons, ih]
      constructor
      · rintro (h | h | h) <;> simp [h]
      · rintro (h | h | h) <;> simp [h]

theorem insertCell_pairwise {α : Type} (x : Nat) (v : α) (m : Mem α)
    (h : m.Pairwise fun c c' => c.1 < c'.1) (hx : ∀ c ∈ m, c.1 ≠ x) :
    (insertCell x v m).Pairwise fun c c' => c.1 < c'.1 := by
  induction m with
  | nil => simp [insertCell]
  | cons e t ih =>
    obtain ⟨a, w⟩ := e
    obtain ⟨h1, h2⟩ := List.pairwise_cons.1 h
    have hax : a ≠ x := hx (a, w) (by simp)
    by_cases hlt : x < a
    · simp only [insertCell, hlt, if_true, List.pairwise_cons]
      refine ⟨?_, h1, h2⟩
      intro c hc
      rcases List.mem_cons.1 hc with rfl | hc
      · exact hlt
      · exact Nat.lt_trans hlt (h1 c hc)
    · simp only [insertCell, hlt, if_false, List.pairwise_cons]
      refine ⟨?_, ih h2 fun c hc => hx c (by simp [hc])⟩
      intro c hc
      rcases (mem_insertCell x v t c).1 hc with rfl | hc
      · show a < x; omega
      · exact h1 c hc

/-- A write inside the space keeps the canonical form. -/
theorem memWf_writeAt {α : Type} [DecidableEq α] (d : α) (n : Nat) (m : Mem α) (x : Nat) (v : α)
    (h : memWf d n m = true) (hx : x < n) : memWf d n (writeAt d m x v) = true := by
  rw [memWf_iff] at h ⊢
  obtain ⟨hp, hc⟩ := h
  have hp' := hp.filter fun c => decide (c.1 ≠ x)
  have hc' : ∀ c ∈ m.filter (fun c => decide (c.1 ≠ x)), c.1 < n ∧ c.2 ≠ d :=
    fun c hm => hc c (List.mem_filter.1 hm).1
  have hn : ∀ c ∈ m.filter (fun c => decide (c.1 ≠ x)), c.1 ≠ x := by simp
  unfold writeAt
  by_cases hv : v = d
  · simp only [hv, if_true]
    exact ⟨hp', hc'⟩
  · simp only [hv, if_false]
    refine ⟨insertCell_pairwise x v _ hp' hn, fun c hm => ?_⟩
    rcases (mem_insertCell x v _ c).1 hm with rfl | hm
    · exact ⟨hx, hv⟩
    · exact hc' c hm

/-- A block write inside the space keeps the canonical form. -/
theorem memWf_writeFrom {α : Type} [DecidableEq α] (d : α) (n : Nat) (vs : List α) (m : Mem α) (x : Nat)
    (h : memWf d n m = true) (hx : x + vs.length ≤ n) : memWf d n (writeFrom d m x vs) = true := by
  induction vs generalizing m x with
  | nil => exact h
  | cons v vs ih =>
    simp only [List.length_cons] at hx
    exact ih _ _ (memWf_writeAt d n m x v h (by omega)) (by omega)

/-- A copy of the first `n` indices is canonical in a space of `n` places. -/
theorem memWf_below {α : Type} [DecidableEq α] (d : α) (n k : Nat) (m : Mem α) (h : memWf d k m = true) :
    memWf d n (below n m) = true := by
  rw [memWf_iff] at h ⊢
  refine ⟨h.1.filter _, fun c hm => ?_⟩
  obtain ⟨h1, h2⟩ := List.mem_filter.1 hm
  exact ⟨of_decide_eq_true h2, (h.2 c h1).2⟩

/-- A fold of operations that each keep the canonical form keeps it. -/
theorem memWf_foldl {α : Type} [DecidableEq α] {β : Type} (d : α) (n : Nat) (f : Mem α → β → Mem α)
    (hf : ∀ m b, memWf d n m = true → memWf d n (f m b) = true) (bs : List β) (m : Mem α)
    (h : memWf d n m = true) : memWf d n (bs.foldl f m) = true := by
  induction bs generalizing m with
  | nil => exact h
  | cons b bs ih => exact ih _ (hf m b h)

theorem readAt_eq_default_of_lt {α : Type} (d : α) (m : Mem α) (x : Nat) (h : ∀ c ∈ m, x < c.1) :
    readAt d m x = d := by
  induction m with
  | nil => rfl
  | cons c t ih =>
    obtain ⟨a, v⟩ := c
    have : x < a := h (a, v) (by simp)
    rw [readAt_cons, if_neg (by omega), ih fun c hc => h c (by simp [hc])]

/-- Canonical memories that read alike are the same data. -/
theorem mem_ext_of_readAt {α : Type} [DecidableEq α] (d : α) (n : Nat) (m m' : Mem α) (h : memWf d n m = true)
    (h' : memWf d n m' = true) (he : ∀ x, readAt d m x = readAt d m' x) : m = m' := by
  rw [memWf_iff] at h h'
  induction m generalizing m' with
  | nil =>
    cases m' with
    | nil => rfl
    | cons c t =>
      have := he c.1
      rw [show c = (c.1, c.2) from rfl, readAt_cons, if_pos rfl] at this
      exact absurd this.symm (h'.2 c (by simp)).2
  | cons c t ih =>
    obtain ⟨a, v⟩ := c
    cases m' with
    | nil =>
      have := he a
      rw [readAt_cons, if_pos rfl] at this
      exact absurd this (h.2 (a, v) (by simp)).2
    | cons c' t' =>
      obtain ⟨a', v'⟩ := c'
      obtain ⟨ht, hp⟩ := List.pairwise_cons.1 h.1
      obtain ⟨ht', hp'⟩ := List.pairwise_cons.1 h'.1
      have haa : a = a' := by
        rcases Nat.lt_trichotomy a a' with hlt | heq | hgt
        · have e := he a
          rw [readAt_cons, if_pos rfl, readAt_cons, if_neg (by omega),
            readAt_eq_default_of_lt d t' a fun c hc => Nat.lt_trans hlt (ht' c hc)] at e
          exact absurd e (h.2 (a, v) (by simp)).2
        · exact heq
        · have e := he a'
          rw [readAt_cons, if_neg (by omega), readAt_cons, if_pos rfl,
            readAt_eq_default_of_lt d t a' fun c hc => Nat.lt_trans hgt (ht c hc)] at e
          exact absurd e.symm (h'.2 (a', v') (by simp)).2
      subst haa
      have hv : v = v' := by
        have e := he a
        rwa [readAt_cons, if_pos rfl, readAt_cons, if_pos rfl] at e
      subst hv
      congr 1
      refine ih t' ⟨hp, fun c hc => h.2 c (by simp [hc])⟩ ⟨hp', fun c hc => h'.2 c (by simp [hc])⟩ ?_
      intro x
      have e := he x
      rw [readAt_cons, readAt_cons] at e
      by_cases hx : a = x
      · subst hx
        rw [readAt_eq_default_of_lt d t a ht, readAt_eq_default_of_lt d t' a ht']
      · rwa [if_neg hx, if_neg hx] at e

/-! ### The two folds over a frame's samples -/

/-- A fold of writes leaves an index alone that none of them writes. -/
theorem readAt_foldl_other {α : Type} [DecidableEq α] {β : Type} (d : α) (idx : β → Nat) (val : β → α) (bs : List β) (m : Mem α)
    (y : Nat) (h : ∀ b ∈ bs, idx b ≠ y) :
    readAt d (bs.foldl (fun m b => writeAt d m (idx b) (val b)) m) y = readAt d m y := by
  induction bs generalizing m with
  | nil => rfl
  | cons b bs ih =>
    rw [List.foldl_cons, ih _ fun b' hb => h b' (by simp [hb]),
      readAt_writeAt_other d m (val b) (h b (by simp)).symm]

/-- If writes to one index agree, a fold of writes leaves each written index at its value. -/
theorem readAt_foldl_mem {α : Type} [DecidableEq α] {β : Type} (d : α) (idx : β → Nat) (val : β → α) (bs : List β) (m : Mem α)
    (hval : ∀ b ∈ bs, ∀ b' ∈ bs, idx b = idx b' → val b = val b') (b : β) (hb : b ∈ bs) :
    readAt d (bs.foldl (fun m b => writeAt d m (idx b) (val b)) m) (idx b) = val b := by
  induction bs generalizing m b with
  | nil => simp at hb
  | cons c cs ih =>
    rw [List.foldl_cons]
    by_cases hcs : ∃ e ∈ cs, idx e = idx b
    · obtain ⟨e, he, heq⟩ := hcs
      have e1 := ih (writeAt d m (idx c) (val c))
        (fun x hx x' hx' => hval x (by simp [hx]) x' (by simp [hx'])) e he
      rw [← heq, e1, hval e (by simp [he]) b hb heq]
    · have hno : ∀ e ∈ cs, idx e ≠ idx b := fun e he h => hcs ⟨e, he, h⟩
      rw [readAt_foldl_other d idx val cs _ _ hno]
      rcases List.mem_cons.1 hb with rfl | hb'
      · simp
      · exact absurd rfl (hno b hb')

/-! ### The shelf -/

theorem slot_storeSegment (k j : Nat) (s : State) (hk : k < 4) :
    (storeSegment k s).slot j = if j = k then below 9840 s.pktbuf else s.slot j := by
  have hs : s.shelf.size = 4 := rfl
  unfold State.slot
  rw [storeSegment_shelf, Vector.getElem?_setIfInBounds]
  by_cases hj : k = j
  · subst hj; simp [hk]
  · simp [hj, Ne.symm hj]

end Sys2Proof.Machine
end

