-- ==== Sys2Proof/Laws/Operands.lean ====
section
/-! SUPPORT. What the operand forms give: header fields from bytes, the samples of a frame, bounds and indices. -/

namespace Sys2Proof.Machine

/-- `SEQ` is byte 1 (30_encoding.md R61). -/
@[simp] theorem seqField_header (b0 b1 b2 b3 : Byte) : seqField (header b0 b1 b2 b3) = b1 := by
  apply BitVec.eq_of_toNat_eq
  have h1 := b1.isLt
  simp [seqField, headerByte, header, seqOffset]
  omega

/-- `SEG` is byte 0 bits 7:4 (30_encoding.md R61). -/
@[simp] theorem segField_header (b0 b1 b2 b3 : Byte) :
    segField (header b0 b1 b2 b3) = BitVec.ofNat 4 (b0.toNat / 16) := by
  apply BitVec.eq_of_toNat_eq
  have h0 := b0.isLt
  simp [segField, headerByte, header, segByte, segShift]
  omega

/-- The fields read back from the slot a packet was stored in are the packet's (30_encoding.md R63). -/
theorem headerAt_storePacket (p : Packet) (s : State) :
    headerAt (storePacket p s).pktbuf s.pos.toNat = packetHeader p := by
  have hlen : p.toList.length = 164 := by simp
  simp only [headerAt, storePacket_pktbuf, Config.packetSize, readAt_writeFrom, hlen, packetHeader]
  rw [if_pos (by omega), if_pos (by omega), if_pos (by omega), if_pos (by omega)]
  have hb : ∀ b, (h : b < 164) → p.toList.getD (164 * s.pos.toNat + b - 164 * s.pos.toNat) 0 = p[b] := by
    intro b h
    rw [Nat.add_sub_cancel_left, List.getD_eq_getElem?_getD, List.getElem?_eq_getElem (by omega)]
    simp
  rw [hb 0 (by omega), hb 1 (by omega), hb 2 (by omega), hb 3 (by omega)]

/-- A packet stored elsewhere leaves the header of another slot alone. -/
theorem headerAt_storePacket_other (p : Packet) (s : State) (q : Nat) (h : q ≠ s.pos.toNat) :
    headerAt (storePacket p s).pktbuf q = headerAt s.pktbuf q := by
  have hlen : p.toList.length = 164 := by simp
  have key : ∀ b, b < 4 → readAt 0 (storePacket p s).pktbuf (164 * q + b) =
      readAt 0 s.pktbuf (164 * q + b) := by
    intro b hb
    rw [storePacket_pktbuf, readAt_writeFrom, hlen, if_neg]
    omega
  simp only [headerAt, Config.packetSize]
  rw [key 0 (by omega), key 1 (by omega), key 2 (by omega), key 3 (by omega)]

/-- The header of a packet slot survives the copy into a shelf slot. -/
theorem headerAt_below (m : Mem Byte) (q : Nat) (h : q < 60) :
    headerAt (below 9840 m) q = headerAt m q := by
  simp only [headerAt, Config.packetSize, readAt_below]
  rw [if_pos (by omega), if_pos (by omega), if_pos (by omega), if_pos (by omega)]

theorem mem_payloadPositions (i : Nat) : i ∈ payloadPositions ↔ isPayload i := by
  simp only [payloadPositions, isPayload, List.mem_filter, List.mem_range, Config.segmentWords,
    Config.headerWords, Config.packetWords, decide_eq_true_eq]

/-- The frame's samples are exactly the non-zero samples at payload positions of its slots
(41_reassembler.md R106). -/
theorem mem_frameSamples (s : State) (x : FrameSample) :
    x ∈ frameSamples s ↔ x.slot < Config.segCount s.cfgVariant ∧ isPayload x.index ∧
      x.value = sampleAt (s.slot x.slot) x.index ∧ x.value ≠ 0 := by
  simp only [frameSamples, List.mem_flatMap, List.mem_range, List.mem_filterMap,
    mem_payloadPositions, frameSample]
  constructor
  · rintro ⟨k, hk, i, hi, h⟩
    by_cases hz : sampleAt (s.slot k) i = 0
    · simp [hz] at h
    · simp only [hz, if_false, Option.some.injEq] at h
      subst h
      exact ⟨hk, hi, rfl, hz⟩
  · rintro ⟨hk, hi, hv, hz⟩
    obtain ⟨k, i, v⟩ := x
    simp only at hk hi hv hz
    subst hv
    exact ⟨k, hk, i, hi, if_neg hz⟩

theorem variant_cases (v : BitVec 1) : v = 0 ∨ v = 1 := by
  revert v; decide

theorem segCount_le (v : BitVec 1) : Config.segCount v ≤ 4 := by
  unfold Config.segCount; split <;> omega

theorem inBounds_iff (v : BitVec 1) (rc : Nat × Nat) :
    inBounds v rc = true ↔ rc.1 < Config.height v ∧ rc.2 < Config.width v := by
  simp [inBounds]

/-- A cell of the active resolution lies in the grid. -/
theorem gridIndex_lt (v : BitVec 1) (rc : Nat × Nat) (h : inBounds v rc = true) :
    gridIndex rc < 19200 := by
  rw [inBounds_iff] at h
  rcases variant_cases v with rfl | rfl <;>
    simp [Config.height, Config.width, gridIndex] at h ⊢ <;> omega

/-- A pixel of the active resolution lies in the preview. -/
theorem previewIndex_lt (v : BitVec 1) (rc : Nat × Nat) (h : inBounds v rc = true) :
    previewIndex v rc < Config.width v * Config.height v := by
  rw [inBounds_iff] at h
  rcases variant_cases v with rfl | rfl <;>
    simp [Config.height, Config.width, previewIndex] at h ⊢ <;> omega

/-- A big-endian sample as a number (20_memory.md R43). -/
theorem sampleAt_toNat (m : Mem Byte) (i : Nat) :
    (sampleAt m i).toNat = (readAt 0 m (2 * i)).toNat * 256 + (readAt 0 m (2 * i + 1)).toNat := by
  have h0 := (readAt 0 m (2 * i)).isLt
  have h1 := (readAt 0 m (2 * i + 1)).isLt
  simp only [sampleAt, BitVec.toNat_ofNat]
  omega

end Sys2Proof.Machine
end

