-- ==== Sys2Proof/Laws/PerInstr.lean ====
section
/-! SUPPORT. Statements for all operations, one lemma for each constructor: the encoder writes the fixed bits
of the operation's row of opcode_table.json. -/

namespace Sys2Proof.Laws

/-- The `mask` and `match` of an operation's row; the PKT rows have no constant match
(30_encoding.md R73). -/
def tableRow : Instr → Option (Nat × Nat)
  | .cfgWr _ _ => some (3, 0)
  | .cfgRd _ => some (3, 1)
  | .start _ => some (3, 2)
  | .reset => some (3, 3)
  | .attBegin => some (15, 1)
  | .pktRd => some (15, 2)
  | .pktAccept | .pktSegok _ | .pktSegbad _ | .pktDesync | .pktFatal => none
  | .synBackoff => some (15, 3)
  | .rbtClose => some (15, 4)
  | .rbtReboot => some (15, 5)
  | .rbtWarm => some (15, 6)
  | .rbtOpen => some (15, 7)
  | .rsmStoreLr | .rsmStoreHr | .rsmStoreHr4 | .rsmInvalid => some (15, 8)
  | .rsmExtract => some (15, 9)
  | .rngHold | .rngScan | .rngScale => some (15, 10)
  | .palMap => some (15, 11)
  | .pubRaw => some (15, 12)
  | .pubPreview => some (15, 13)
  | .pubPoll => some (15, 14)
  | .cmdPoll => some (16777215, 4605507)

/-- The encoded selector carries the row's fixed bits. -/
def TableMatch.Statement (i : Instr) : Prop :=
  match tableRow i with
  | none => True
  | some (mask, bits) => (encode i).rowBits &&& mask = bits

theorem TableMatch.cfgWr (num : BitVec 4) (value : BitVec 32) :
    TableMatch.Statement (.cfgWr num value) :=
  show (0 : BitVec 2).toNat &&& 3 = 0 from rfl
theorem TableMatch.cfgRd (num : BitVec 4) : TableMatch.Statement (.cfgRd num) :=
  show (1 : BitVec 2).toNat &&& 3 = 1 from rfl
theorem TableMatch.start (netOk : Bool) : TableMatch.Statement (.start netOk) :=
  show (2 : BitVec 2).toNat &&& 3 = 2 from rfl
theorem TableMatch.reset : TableMatch.Statement .reset := rfl
theorem TableMatch.attBegin : TableMatch.Statement .attBegin := rfl
theorem TableMatch.pktRd : TableMatch.Statement .pktRd := rfl
theorem TableMatch.pktAccept : TableMatch.Statement .pktAccept := trivial
theorem TableMatch.pktSegok (seg : BitVec 4) : TableMatch.Statement (.pktSegok seg) := trivial
theorem TableMatch.pktSegbad (seg : BitVec 4) : TableMatch.Statement (.pktSegbad seg) := trivial
theorem TableMatch.pktDesync : TableMatch.Statement .pktDesync := trivial
theorem TableMatch.pktFatal : TableMatch.Statement .pktFatal := trivial
theorem TableMatch.synBackoff : TableMatch.Statement .synBackoff := rfl
theorem TableMatch.rbtClose : TableMatch.Statement .rbtClose := rfl
theorem TableMatch.rbtReboot : TableMatch.Statement .rbtReboot := rfl
theorem TableMatch.rbtWarm : TableMatch.Statement .rbtWarm := rfl
theorem TableMatch.rbtOpen : TableMatch.Statement .rbtOpen := rfl
theorem TableMatch.rsmStoreLr : TableMatch.Statement .rsmStoreLr := rfl
theorem TableMatch.rsmStoreHr : TableMatch.Statement .rsmStoreHr := rfl
theorem TableMatch.rsmStoreHr4 : TableMatch.Statement .rsmStoreHr4 := rfl
theorem TableMatch.rsmInvalid : TableMatch.Statement .rsmInvalid := rfl
theorem TableMatch.rsmExtract : TableMatch.Statement .rsmExtract := rfl
theorem TableMatch.rngHold : TableMatch.Statement .rngHold := rfl
theorem TableMatch.rngScan : TableMatch.Statement .rngScan := rfl
theorem TableMatch.rngScale : TableMatch.Statement .rngScale := rfl
theorem TableMatch.palMap : TableMatch.Statement .palMap := rfl
theorem TableMatch.pubRaw : TableMatch.Statement .pubRaw := rfl
theorem TableMatch.pubPreview : TableMatch.Statement .pubPreview := rfl
theorem TableMatch.pubPoll : TableMatch.Statement .pubPoll := rfl
theorem TableMatch.cmdPoll : TableMatch.Statement .cmdPoll := rfl

end Sys2Proof.Laws
end

