-- ==== Sys2Proof/Laws/Step.lean ====
section
/-! SUPPORT. What a step can do: the core's operation by phase, and the host's move or the core's. -/

namespace Sys2Proof.Machine

@[simp] theorem andThen_next (s : State) (f : State → Result) : andThen (.next s) f = f s := rfl

/-- `andThen` answers a next state only through one. -/
theorem andThen_eq_next {r : Result} {f : State → Result} {t : State} :
    andThen r f = .next t ↔ ∃ s, r = .next s ∧ f s = .next t := by
  cases r <;> simp [andThen]

@[simp] theorem ofCode_code (p : Phase) : Phase.ofCode p.code = p := by cases p <;> rfl

/-- The operations a core step runs, by phase (30_encoding.md R70, 42_range_tracker.md R115). -/
theorem coreStep_eq (s : State) : coreStep s =
    match s.phase with
    | .idle => .next s
    | .attBegin => exec .attBegin s
    | .seek => exec .pktRd s
    | .backoff => exec .synBackoff s
    | .rbtClose => exec .rbtClose s
    | .rbtReboot => exec .rbtReboot s
    | .rbtWarm => exec .rbtWarm s
    | .rbtOpen => exec .rbtOpen s
    | .reasm =>
      if s.cfgVariant = 0 then exec .rsmStoreLr s
      else if segValid s.segId = false then exec .rsmInvalid s
      else if s.segId = 4 then exec .rsmStoreHr4 s
      else exec .rsmStoreHr s
    | .extract => exec .rsmExtract s
    | .range => andThen (if s.cfgAuto = 0 then exec .rngHold s else exec .rngScan s) (exec .rngScale)
    | .map => exec .palMap s
    | .pubRaw => exec .pubRaw s
    | .pubPreview => exec .pubPreview s
    | .pubPoll => exec .pubPoll s
    | .halt => .fault .halted := by
  cases h : s.phase with
  | reasm =>
    by_cases h0 : s.cfgVariant = 0#1
    · simp [coreStep, phaseSelector, h, Phase.code, decode, decodePhase, h0]
    · by_cases h1 : segValid s.segId = false
      · simp [coreStep, phaseSelector, h, Phase.code, decode, decodePhase, h0, h1]
      · by_cases h2 : s.segId = 4#4
        · simp [coreStep, phaseSelector, h, Phase.code, decode, decodePhase, h0, h2, segValid]
        · simp only [Bool.not_eq_false] at h1
          simp [coreStep, phaseSelector, h, Phase.code, decode, decodePhase, h0, h1, h2]
  | range =>
    by_cases h0 : s.cfgAuto = 0#2 <;>
      simp [coreStep, phaseSelector, h, Phase.code, decode, decodePhase, h0]
  | _ => simp [coreStep, phaseSelector, h, Phase.code, decode, decodePhase]

/-- A step is the host's move if it makes one, else the core's. -/
theorem step_eq (s : State) : step s =
    match hostMove s with
    | some a => exec a.instr (takeHost s)
    | none => coreStep (takeHost s) := by
  unfold step nextStep hostMove takeHost
  cases h : s.hostIn with
  | nil =>
    have : ({ s with hostIn := [] } : State) = s := by cases s; simp_all
    simp [this]
  | cons a rest => cases a <;> simp

/-- Inversion of a step that goes on. -/
theorem step_next_cases {s t : State} (h : step s = .next t) :
    (∃ a, hostMove s = some a ∧ exec a.instr (takeHost s) = .next t) ∨
    (hostMove s = none ∧ coreStep (takeHost s) = .next t) := by
  rw [step_eq] at h
  cases hm : hostMove s with
  | some a => rw [hm] at h; exact .inl ⟨a, rfl, h⟩
  | none => rw [hm] at h; exact .inr ⟨rfl, h⟩

end Sys2Proof.Machine
end

