-- ==== Sys2Proof/Laws/Synchronizer.lean ====
section
/-! SUPPORT. What reading a packet can do: the ordered test as four disjoint cases, and the inversion of PKT.RD. -/

namespace Sys2Proof.Machine

/-- The ordered test of a delivered packet as four cases with their conditions (30_encoding.md R62). -/
theorem decodePacket_cases (h : BitVec 32) (pos : BitVec 6) (v : BitVec 1) :
    ((seqField h).toNat ≠ pos.toNat ∧ decodePacket (some h) pos v = .desync) ∨
    ((seqField h).toNat = pos.toNat ∧ v = 1#1 ∧ pos.toNat = 20 ∧ segValid (segField h) = true ∧
      decodePacket (some h) pos v = .segok (segField h)) ∨
    ((seqField h).toNat = pos.toNat ∧ v = 1#1 ∧ pos.toNat = 20 ∧ segValid (segField h) = false ∧
      decodePacket (some h) pos v = .segbad (segField h)) ∨
    ((seqField h).toNat = pos.toNat ∧ ¬ (v = 1#1 ∧ pos.toNat = 20) ∧
      decodePacket (some h) pos v = .accept) := by
  have hp := pos.isLt
  have hiff : (seqField h).toNat = pos.toNat ↔ seqField h = pos.setWidth 8 := by
    constructor
    · intro e; apply BitVec.eq_of_toNat_eq; simp [e]; omega
    · intro e; rw [e]; simp; omega
  unfold decodePacket
  by_cases h1 : seqField h = pos.setWidth 8
  · have h2 := hiff.2 h1
    by_cases h3 : v = 1#1 ∧ pos.toNat = 20
    · have h3' : v = 1 ∧ pos.toNat = Config.segPos := h3
      cases h4 : segValid (segField h)
      · exact .inr (.inr (.inl ⟨h2, h3.1, h3.2, rfl, by
          simp only [h1, ne_eq, not_true, if_false]
          rw [if_pos h3', if_neg (by simp [h4])]⟩))
      · exact .inr (.inl ⟨h2, h3.1, h3.2, rfl, by
          simp only [h1, ne_eq, not_true, if_false]
          rw [if_pos h3', if_pos h4]⟩)
    · have h3' : ¬ (v = 1 ∧ pos.toNat = Config.segPos) := h3
      exact .inr (.inr (.inr ⟨h2, h3, by
        simp only [h1, ne_eq, not_true, if_false]
        rw [if_neg h3']⟩))
  · exact .inl ⟨fun e => h1 (hiff.1 e), by simp [h1]⟩

/-- The state a delivered packet leaves before its operation runs. -/
def packetStored (s : State) (p : Packet) (rest : List BusAnswer) : State :=
  storePacket p (logCall .busRead { s with busIn := rest })

/-- The accepted packet: what PKT.ACCEPT leaves, with its poll (40_synchronizer.md R83). -/
def packetAccepted (s : State) : State :=
  let s := { s with pos := s.pos + 1 }
  goto (if s.pos.toNat = 60 then .reasm else .seek)
    (if s.pos.toNat % 20 = 0 then pollCommand s else s)

theorem execPktAccept_eq (s : State) (h : s.pos.toNat < 60) :
    execPktAccept s = .next (packetAccepted s) := by
  simp only [execPktAccept, packetAccepted, Config.packetsPerFrame, Config.pollPeriod]
  rw [if_neg (by omega)]
  split <;> simp

/-- The next position, which does not wrap below 60. -/
theorem pos_succ_toNat (p : BitVec 6) (h : p.toNat < 60) : (p + 1).toNat = p.toNat + 1 := by
  simp only [BitVec.toNat_add, BitVec.ofNat_eq_ofNat, BitVec.toNat_ofNat]
  omega

/-- Everything PKT.RD can do when it answers a next state. -/
theorem execPktRd_next {s t : State} (h : execPktRd s = .next t) :
    (s.busIn = [] ∧ t = s) ∨
    (∃ rest, s.busIn = .fatal :: rest ∧
      t = goto .halt (raiseCause .busFatal (logCall .busRead { s with busIn := rest }))) ∨
    (∃ p rest, s.busIn = .packet p :: rest ∧ s.pos.toNat < 60 ∧
      let h := packetHeader p
      let u := packetStored s p rest
      (((seqField h).toNat ≠ s.pos.toNat ∧ s.resets.toNat + 1 < 1024 ∧
          t = goto .backoff { raiseCause .transientDesync u with
            pos := 0, segId := 0, resets := s.resets + 1 }) ∨
        ((seqField h).toNat = s.pos.toNat ∧ s.cfgVariant = 1#1 ∧ s.pos.toNat = 20 ∧
          segValid (segField h) = true ∧ t = goto .seek { u with segId := segField h, pos := 21 }) ∨
        ((seqField h).toNat = s.pos.toNat ∧ s.cfgVariant = 1#1 ∧ s.pos.toNat = 20 ∧
          segValid (segField h) = false ∧
          t = goto .reasm (raiseCause .invalidSegment { u with segId := segField h })) ∨
        ((seqField h).toNat = s.pos.toNat ∧ ¬ (s.cfgVariant = 1#1 ∧ s.pos.toNat = 20) ∧
          t = packetAccepted u))) := by
  unfold execPktRd at h
  split at h
  · rename_i hb; cases h; exact .inl ⟨hb, rfl⟩
  · rename_i rest hb; cases h; exact .inr (.inl ⟨rest, hb, rfl⟩)
  · rename_i p rest hb
    split at h
    · cases h
    · rename_i hlt
      have hpos : s.pos.toNat < 60 := by simpa using hlt
      refine .inr (.inr ⟨p, rest, hb, hpos, ?_⟩)
      rcases decodePacket_cases (packetHeader p) s.pos s.cfgVariant with
        ⟨h1, e⟩ | ⟨h1, h2, h3, h4, e⟩ | ⟨h1, h2, h3, h4, e⟩ | ⟨h1, h2, e⟩ <;>
        rw [e] at h <;> simp only [runPacketOp] at h
      · unfold execPktDesync at h
        split at h
        · rename_i hr; cases h; exact .inl ⟨h1, hr, rfl⟩
        · cases h
      · cases h; exact .inr (.inl ⟨h1, h2, h3, h4, rfl⟩)
      · cases h; exact .inr (.inr (.inl ⟨h1, h2, h3, h4, rfl⟩))
      · have e2 := execPktAccept_eq (packetStored s p rest) hpos
        rw [packetStored, h] at e2
        cases e2; exact .inr (.inr (.inr ⟨h1, h2, rfl⟩))

end Sys2Proof.Machine
end

