-- ==== Sys2Proof/Tests/Slice0.lean ====
section
/-! SUPPORT. Tests of single steps, decoded words and well-formedness with expected values from the spec's
tables, and for every statement with hypotheses a concrete state and operands that meet them. -/

namespace Sys2Proof.Tests
open Sys2Proof Sys2Proof.Machine

/-! ### Small states -/

/-- `TESTPAL` of 95_test_vectors.md: triple `t` is `(t, 255 - t, 2t mod 256)`. -/
def testPalette : Palette where
  first := 0
  rest := ((List.range 256).flatMap fun t =>
    [BitVec.ofNat 8 t, BitVec.ofNat 8 (255 - t), BitVec.ofNat 8 (2 * t)]).tail

/-- `TESTPAL` without its last entry. -/
def shortPalette : Palette := { testPalette with rest := testPalette.rest.dropLast }

/-- The parameters of 95_test_vectors.md with `CMD_MAX_LEN` 4. -/
def testParams : Params where
  backoffTime := 1
  warmupTime := 750
  busId := 7
  busClockDefault := 1000
  cmdMaxExtra := 1
  outBigEndian := false
  ironblack := testPalette
  rainbow := shortPalette
  grayscale := ⟨5, []⟩

def base : State := State.resetWith testParams

/-- A running state in a phase. -/
def inPhase (p : Phase) : State := { base with phase := p, busOpen := true }

/-- A packet with given first two bytes and zeros. -/
def pkt (b0 b1 : Byte) : Packet := packetOf (header b0 b1 0 0)

/-- About to read a packet. -/
def seekAt (pos : BitVec 6) (variant : BitVec 1) (p : Packet) : State :=
  { inPhase .seek with pos := pos, cfgVariant := variant, busIn := [.packet p] }

/-- Two samples of program P1 of 95_test_vectors.md, 100 at packet 1 sample 0 and 2550 at packet 30
sample 40, and the sequence byte of packet 1. -/
def frameSlot : Mem Byte := [(165, 1), (169, 100), (5004, 0x09), (5005, 0xF6)]

/-- A low-res frame on the shelf, in a phase. -/
def frameIn (p : Phase) : State := { inPhase p with shelf := #v[frameSlot, [], [], []] }

/-- A segment of 60 packets whose samples are 0, its packet 20 naming segment 3. -/
def cleanPacket (q : Nat) : Packet := pkt (if q = 20 then 0x30 else 0) (BitVec.ofNat 8 q)
def cleanPackets : List Packet := (List.range 60).map cleanPacket

/-- What those packets leave in `pktbuf`. -/
def cleanBuffer : Mem Byte :=
  (List.range 60).flatMap fun q =>
    if q = 0 then [] else
      (if q = 20 then [(3280, (0x30 : Byte))] else []) ++ [(164 * q + 1, BitVec.ofNat 8 q)]

/-- Whether a result is a next state that passes a check. -/
def answers (r : Result) (f : State → Bool) : Bool :=
  match r with
  | .next t => f t
  | .fault _ | .refused _ => false

/-- Whether a result is a given fault. -/
def faults (r : Result) (e : Fault) : Bool :=
  match r with
  | .fault e' => e' = e
  | .next _ | .refused _ => false

theorem answers_next {r : Result} {f : State → Bool} (h : answers r f = true) :
    ∃ t, r = .next t ∧ f t = true := by
  cases r with
  | next t => exact ⟨t, rfl, h⟩
  | fault e => cases h
  | refused e => cases h

/-! ### Well-formedness -/

theorem test_wf_refuses_segok_0 : (Instr.pktSegok 0).wf = false := by decide
theorem test_wf_refuses_segok_5 : (Instr.pktSegok 5).wf = false := by decide
theorem test_wf_refuses_segbad_1 : (Instr.pktSegbad 1).wf = false := by decide
theorem test_wf_refuses_segbad_4 : (Instr.pktSegbad 4).wf = false := by decide
theorem test_wf_admits :
    (Instr.pktSegok 1).wf = true ∧ (Instr.pktSegok 4).wf = true ∧ (Instr.pktSegbad 0).wf = true ∧
      (Instr.pktSegbad 15).wf = true ∧ (Instr.cfgWr 15 0xFFFFFFFF).wf = true := by decide

/-! ### Decoding, words written out from 30_encoding.md R70, R73 and 10_state.md R12 -/

theorem test_decode_host :
    decode (.host 0b00 5 1000 false) = .ok (.cfgWr 5 1000) ∧
    decode (.host 0b01 13 0 false) = .ok (.cfgRd 13) ∧
    decode (.host 0b10 0 0 true) = .ok (.start true) ∧
    decode (.host 0b11 0 0 false) = .ok .reset := ⟨rfl, rfl, rfl, rfl⟩

theorem test_decode_phase_synchronizer :
    decode (.phase 0b0001 0 0 0 .first) = .ok .attBegin ∧
    decode (.phase 0b0010 0 0 0 .first) = .ok .pktRd ∧
    decode (.phase 0b0011 0 0 0 .first) = .ok .synBackoff ∧
    decode (.phase 0b0100 0 0 0 .first) = .ok .rbtClose ∧
    decode (.phase 0b0101 0 0 0 .first) = .ok .rbtReboot ∧
    decode (.phase 0b0110 0 0 0 .first) = .ok .rbtWarm ∧
    decode (.phase 0b0111 0 0 0 .first) = .ok .rbtOpen := ⟨rfl, rfl, rfl, rfl, rfl, rfl, rfl⟩

theorem test_decode_phase_reassembler :
    decode (.phase 0b1000 0 4 0 .first) = .ok .rsmStoreLr ∧
    decode (.phase 0b1000 1 1 0 .first) = .ok .rsmStoreHr ∧
    decode (.phase 0b1000 1 3 0 .first) = .ok .rsmStoreHr ∧
    decode (.phase 0b1000 1 4 0 .first) = .ok .rsmStoreHr4 ∧
    decode (.phase 0b1000 1 0 0 .first) = .ok .rsmInvalid ∧
    decode (.phase 0b1000 1 5 0 .first) = .ok .rsmInvalid ∧
    decode (.phase 0b1001 0 0 0 .first) = .ok .rsmExtract :=
  ⟨rfl, rfl, rfl, rfl, rfl, rfl, rfl⟩

theorem test_decode_phase_frame :
    decode (.phase 0b1010 0 0 0b00 .first) = .ok .rngHold ∧
    decode (.phase 0b1010 0 0 0b01 .first) = .ok .rngScan ∧
    decode (.phase 0b1010 0 0 0b10 .first) = .ok .rngScan ∧
    decode (.phase 0b1010 0 0 0b00 .second) = .ok .rngScale ∧
    decode (.phase 0b1011 0 0 0 .first) = .ok .palMap ∧
    decode (.phase 0b1100 0 0 0 .first) = .ok .pubRaw ∧
    decode (.phase 0b1101 0 0 0 .first) = .ok .pubPreview ∧
    decode (.phase 0b1110 0 0 0 .first) = .ok .pubPoll :=
  ⟨rfl, rfl, rfl, rfl, rfl, rfl, rfl, rfl⟩

theorem test_decode_rejects :
    decode (.phase 0b0000 0 0 0 .first) = .error .idle ∧
    decode (.phase 0b1111 0 0 0 .first) = .error .halt ∧
    decode (.phase 0b1001 0 0 0 .second) = .error .noSecondHalf ∧
    decode (.window 0x666663) = .error .noToken := ⟨rfl, rfl, rfl, rfl⟩

/-- The table of 95_test_vectors.md 2.1, the header words written out byte by byte. -/
theorem test_decode_packets_high_res :
    decode (.packet (some 0x10140000) 20 1) = .ok (.pktSegok 1) ∧
    decode (.packet (some 0x4F140000) 20 1) = .ok (.pktSegok 4) ∧
    decode (.packet (some 0x00140000) 20 1) = .ok (.pktSegbad 0) ∧
    decode (.packet (some 0x50140000) 20 1) = .ok (.pktSegbad 5) ∧
    decode (.packet (some 0xF0140000) 20 1) = .ok (.pktSegbad 15) ∧
    decode (.packet (some 0x00150000) 20 1) = .ok .pktDesync ∧
    decode (.packet (some 0x00130000) 19 1) = .ok .pktAccept ∧
    decode (.packet (some 0x00150000) 21 1) = .ok .pktAccept :=
  ⟨rfl, rfl, rfl, rfl, rfl, rfl, rfl, rfl⟩

theorem test_decode_packets_low_res :
    decode (.packet (some 0x00000000) 0 0) = .ok .pktAccept ∧
    decode (.packet (some 0xF0140000) 20 0) = .ok .pktAccept ∧
    decode (.packet (some 0x003C0000) 0 0) = .ok .pktDesync ∧
    decode (.packet (some 0x00FF0000) 5 0) = .ok .pktDesync ∧
    decode (.packet (some 0x00000000) 3 0) = .ok .pktDesync ∧
    decode (.packet (some 0x003B0000) 59 0) = .ok .pktAccept ∧
    decode (.packet none 33 0) = .ok .pktFatal ∧
    decode (.window 0x464643) = .ok .cmdPoll := ⟨rfl, rfl, rfl, rfl, rfl, rfl, rfl, rfl⟩

theorem test_packet_header_bytes : packetHeader (pkt 0x30 0x14) = 0x30140000 := by decide

/-! ### One step of each operation, values from 95_test_vectors.md part 2 -/

theorem test_cfgWr_low_bits :
    answers (exec (.cfgWr 3 0x12345) base) (fun t => t.cfgMin = 0x2345) = true := by decide
theorem test_cfgWr_palette_refused :
    answers (exec (.cfgWr 1 3) base) (fun t => t = base) = true ∧
    answers (exec (.cfgWr 1 6) base) (fun t => t.cfgPalette = 2) = true := by decide +kernel
theorem test_cfgRd_status :
    answers (exec (.cfgRd 8) { inPhase .seek with netDegraded := true })
      (fun t => t.replies = [21]) = true := by decide
theorem test_cfgRd_halted :
    answers (exec (.cfgRd 8) (inPhase .halt)) (fun t => t.replies = [0b10010]) = true := by decide
theorem test_start_fails :
    answers (exec (.start false) base) (fun t => t.netDegraded && t.busOpen && t.rangeMin = 0 &&
      t.rangeMax = 65535 && t.trace = [.busOpen 7 1000] && t.phase = .attBegin) = true := by decide
theorem test_start_ignored :
    answers (exec (.start true) (inPhase .seek)) (fun t => t = inPhase .seek) = true := by decide +kernel
theorem test_reset_in_halt :
    answers (exec .reset { inPhase .halt with pos := 33, grid := [(0, 9)] })
      (fun t => t = base) = true := by decide +kernel
theorem test_attBegin :
    answers (exec .attBegin { inPhase .attBegin with
        pos := 60, resets := 3, segId := 4, pollIn := [none] })
      (fun t => t.phase = .seek && t.pos = 0 && t.resets = 0 && t.segId = 0 && t.pollIn = [] &&
        t.calls = [.netPoll none]) = true := by decide
theorem test_pktRd_stores_bytes :
    answers (exec .pktRd (seekAt 7 0 (pkt 0xAB 7)))
      (fun t => t.pktbuf = [(1148, 0xAB), (1149, 7)] && t.pos = 8) = true := by decide +kernel
theorem test_pktRd_desync :
    answers (exec .pktRd { seekAt 5 0 (pkt 0 9) with resets := 2 })
      (fun t => t.phase = .backoff && t.pos = 0 && t.resets = 3 && t.trace = []) = true := by
  decide +kernel
theorem test_pktAccept_19 :
    answers (exec .pktAccept { inPhase .seek with pos := 19, pollIn := [some [0x46, 0x46, 0x43]] })
      (fun t => t.pos = 20 && t.phase = .seek && t.trace = [.sensorCalibrate]) = true := by decide
theorem test_pktAccept_59 :
    answers (exec .pktAccept { inPhase .seek with pos := 59 })
      (fun t => t.pos = 60 && t.phase = .reasm && t.calls = [.netPoll none]) = true := by decide
theorem test_pktSegok_3 :
    answers (exec (.pktSegok 3) { inPhase .seek with pos := 20 })
      (fun t => t.segId = 3 && t.pos = 21 && t.phase = .seek && t.calls = []) = true := by decide
theorem test_pktSegbad_0 :
    answers (exec (.pktSegbad 0) { inPhase .seek with pos := 20 })
      (fun t => t.segId = 0 && t.pos = 20 && t.phase = .reasm && t.causes = [.invalidSegment])
      = true := by decide
theorem test_pktDesync_clears_segId :
    answers (exec .pktDesync { inPhase .seek with pos := 30, segId := 2 })
      (fun t => t.phase = .backoff && t.pos = 0 && t.resets = 1 && t.segId = 0) = true := by decide
theorem test_pktFatal_33 :
    answers (exec .pktFatal { inPhase .seek with pos := 33 })
      (fun t => t.phase = .halt && t.pos = 33 && t.trace = []) = true := by decide
theorem test_synBackoff_749 :
    answers (exec .synBackoff { inPhase .backoff with resets := 749 })
      (fun t => t.phase = .seek && t.resets = 749) = true := by decide
theorem test_synBackoff_750 :
    answers (exec .synBackoff { inPhase .backoff with resets := 750 })
      (fun t => t.phase = .rbtClose && t.resets = 750) = true := by decide
theorem test_rbtClose :
    answers (exec .rbtClose (inPhase .rbtClose))
      (fun t => t.phase = .rbtReboot && !t.busOpen && t.trace = [.busClose 7]) = true := by decide
theorem test_rbtReboot :
    answers (exec .rbtReboot { inPhase .rbtReboot with resets := 750, invalidSegCount := 12 })
      (fun t => t.phase = .rbtWarm && t.resets = 0 && t.invalidSegCount = 0 &&
        t.trace = [.sensorReboot]) = true := by decide
theorem test_rbtWarm :
    answers (exec .rbtWarm (inPhase .rbtWarm))
      (fun t => t.phase = .rbtOpen && t.calls = [.timerWait 750]) = true := by decide
theorem test_rbtOpen :
    answers (exec .rbtOpen { inPhase .rbtOpen with busOpen := false, cfgBusClock := 20 })
      (fun t => t.phase = .seek && t.busOpen && t.trace = [.busOpen 7 20]) = true := by decide
theorem test_rsmStoreLr :
    answers (exec .rsmStoreLr { inPhase .reasm with pktbuf := [(5, 1)], shelf := #v[[(9, 9)], [(1, 1)], [], []] })
      (fun t => t.shelf = #v[[(5, 1)], [(1, 1)], [], []] && t.phase = .extract) = true := by decide
theorem test_rsmStoreHr :
    answers (exec .rsmStoreHr { inPhase .reasm with cfgVariant := 1, segId := 2, pktbuf := [(5, 1)] })
      (fun t => t.shelf = #v[[], [(5, 1)], [], []] && t.phase = .attBegin && t.trace = []) = true := by
  decide
theorem test_rsmStoreHr4 :
    answers (exec .rsmStoreHr4 { inPhase .reasm with cfgVariant := 1, segId := 4, pktbuf := [(5, 1)] })
      (fun t => t.shelf = #v[[], [], [], [(5, 1)]] && t.phase = .extract) = true := by decide
theorem test_rsmInvalid_wraps :
    answers (exec .rsmInvalid { inPhase .reasm with invalidSegCount := 65535 })
      (fun t => t.invalidSegCount = 0 && t.phase = .attBegin) = true := by decide
theorem test_rsmExtract_places :
    answers (exec .rsmExtract { frameIn .extract with grid := [(3, 500)] })
      (fun t => t.grid = [(3, 500), (160, 100), (4840, 2550)] && t.phase = .range) = true := by
  decide +kernel
/-- Samples of program P3 and 65535, high-res. -/
theorem test_rsmExtract_high_res :
    [FrameSample.mk 0 84 1100, ⟨1, 7, 1255⟩, ⟨2, 4919, 999⟩, ⟨3, 4758, 65535⟩].foldl (extractSample 1) []
      = [(80, 1100), (4805, 1255), (14399, 999), (19040, 65535)] := by decide +kernel
theorem test_rngHold :
    answers (exec .rngHold { frameIn .range with rangeMin := 7000, rangeMax := 9000 })
      (fun t => t.rangeMin = 7000 && t.rangeMax = 9000) = true := by decide
theorem test_rngScan_both :
    answers (exec .rngScan (frameIn .range)) (fun t => t.rangeMin = 100 && t.rangeMax = 2550)
      = true := by decide +kernel
theorem test_rngScan_max_only_empty :
    answers (exec .rngScan { inPhase .range with cfgAuto := 0b10, rangeMin := 1000 })
      (fun t => t.rangeMin = 1000 && t.rangeMax = 0) = true := by decide +kernel
theorem test_rngScale :
    answers (exec .rngScale { inPhase .range with rangeMin := 100, rangeMax := 5000 })
      (fun t => t.diff = 4900 && !t.rangeDegenerate && t.phase = .map) = true := by decide
theorem test_rngScale_degenerate :
    answers (exec .rngScale { inPhase .range with rangeMin := 9000, rangeMax := 7000 })
      (fun t => t.diff = 1 && t.rangeDegenerate && t.causes = [.degenerateRange]) = true := by decide
theorem test_palMap_frame :
    answers (exec .palMap { frameIn .map with rangeMin := 100, diff := 4900 })
      (fun t => t.preview = [(80, ⟨0, 255, 0⟩), (2440, ⟨127, 128, 254⟩)]) = true := by decide +kernel
/-- Rows of the table of 95_test_vectors.md 2.5: floor, under range, over range, short palette. -/
theorem test_palMap_pixels :
    pixelOf testPalette 100 4900 119 = ⟨0, 255, 0⟩ ∧ pixelOf testPalette 100 4900 120 = ⟨1, 254, 2⟩ ∧
    pixelOf testPalette 1000 255 999 = ⟨0, 0, 0⟩ ∧ pixelOf testPalette 1000 255 2000 = ⟨254, 254, 254⟩ ∧
    pixelOf testPalette 7 1 8 = ⟨255, 0, 254⟩ ∧ pixelOf shortPalette 100 4900 5000 = ⟨255, 0, 0⟩ := by
  decide +kernel
theorem test_pubRaw_little_endian :
    answers (exec .pubRaw { inPhase .pubRaw with grid := [(160, 8000)] })
      (fun t => match t.trace with
        | [.netSend p] => p[320]? = some 0x40 && p[321]? = some 0x1F
        | _ => false) = true := by decide +kernel
theorem test_pubRaw_big_endian : cellBytes true 8000 = [0x1F, 0x40] := by decide
theorem test_pubPreview_low_res :
    answers (exec .pubPreview { inPhase .pubPreview with preview := [(80, ⟨1, 2, 3⟩)] })
      (fun t => match t.trace with
        | [.previewFrame w h p] => w = 80 && h = 60 && p[80]? = some ⟨1, 2, 3⟩
        | _ => false) = true := by decide +kernel
theorem test_pubPoll_none :
    answers (exec .pubPoll (inPhase .pubPoll))
      (fun t => t.phase = .attBegin && t.trace = [] && t.calls = [.netPoll none]) = true := by decide
/-- The command table of 95_test_vectors.md 2.6, with `CMD_MAX_LEN` 4: "xFFC" and a zero byte before the
token are found, "xxFFC", "ffc", "F FC", "FF" and "" are not. -/
theorem test_cmdPoll_tokens :
    hasToken 4 [0x78, 0x46, 0x46, 0x43] = true ∧ hasToken 4 [0, 0x46, 0x46, 0x43] = true ∧
    hasToken 4 [0x78, 0x78, 0x46, 0x46, 0x43] = false ∧ hasToken 4 [0x66, 0x66, 0x63] = false ∧
    hasToken 4 [0x46, 0x20, 0x46, 0x43] = false ∧ hasToken 4 [0x46, 0x46] = false ∧
    hasToken 4 [] = false := by decide
theorem test_cmdPoll_once :
    answers (exec .cmdPoll { base with
        pollIn := [some [0x46, 0x46, 0x43, 0x46, 0x46, 0x43], some [0x46, 0x46, 0x43]] })
      (fun t => t.trace = [.sensorCalibrate] && t.pollIn.length = 1) = true := by decide

/-- The table of positions of 95_test_vectors.md 2.3. -/
theorem test_positions :
    positionOf 2502 0 0 = (30, 40) ∧ positionOf 4919 0 0 = (59, 79) ∧ positionOf 84 0 1 = (0, 80) ∧
    positionOf 1642 0 1 = (10, 0) ∧ positionOf 7 1 1 = (30, 5) ∧ positionOf 4919 2 1 = (89, 159) ∧
    positionOf 1803 3 1 = (100, 159) ∧ positionOf 4758 3 1 = (119, 0) := by decide

/-! ### Placing a table word -/

theorem test_place_phase :
    answers (step (base.withFetchWord 8 0b0100)) (fun t => t.trace = [.busClose 7]) = true := by decide
theorem test_place_host :
    answers (step (base.withFetchWord 8 0)) (fun t => t.cfgVariant = 0 && t.hostIn = []) = true := by
  decide
theorem test_place_packet :
    answers (step (base.withFetchWord 32 0x00010000)) (fun t => t.causes = [.transientDesync]) = true := by
  decide +kernel
theorem test_place_token :
    answers (step (base.withFetchWord 24 0x464643)) (fun t => t.trace = [.sensorCalibrate]) = true := by
  decide

/-! ### Witnesses: states and operands that meet each statement's hypotheses, clause by clause -/

theorem test_w_every_phase : ∀ p : Phase, (inPhase p).phase = p := fun _ => rfl

theorem test_w_cfgWr : base.phase = .idle ∧ (inPhase .seek).phase ≠ .idle ∧ (inPhase .halt).phase ≠ .idle := by
  decide

/-- Both outcomes of each test of 30_encoding.md R62, at the ends of its range. -/
theorem test_w_packetBytes :
    packetByte (pkt 0 60) 1 ≠ 59 ∧ packetByte (pkt 0 59) 1 = 59 ∧
    (packetByte (pkt 0x1F 20) 1 = 20 ∧ 1 ≤ packetByte (pkt 0x1F 20) 0 / 16) ∧
    (packetByte (pkt 0x4F 20) 1 = 20 ∧ packetByte (pkt 0x4F 20) 0 / 16 ≤ 4) ∧
    ¬ (1 ≤ packetByte (pkt 0x0F 20) 0 / 16) ∧ ¬ (packetByte (pkt 0x50 20) 0 / 16 ≤ 4) := by
  decide

theorem test_w_selection :
    packetByte (pkt 0x4F 20) 1 = packetByte (packetOf 0x4014FFFF) 1 ∧
    packetByte (pkt 0x4F 20) 0 / 16 = packetByte (packetOf 0x4014FFFF) 0 / 16 ∧
    pkt 0x4F 20 ≠ packetOf 0x4014FFFF := by decide +kernel

theorem test_w_pktRd :
    ((seekAt 0 0 (pkt 0 0)).busIn = [.packet (pkt 0 0)] ∧ (seekAt 0 0 (pkt 0 0)).pos.toNat < 60) ∧
    (seekAt 59 1 (pkt 0 59)).pos.toNat < 60 ∧
    (1022#10).toNat < 1023 ∧
    ({ inPhase .seek with busIn := [.fatal] }).busIn = [.fatal] ∧ (inPhase .seek).busIn = [] := by
  decide +kernel

theorem test_w_pktAccept :
    (seekAt 0 0 (pkt 0 0)).pos.toNat < 60 ∧ (seekAt 59 0 (pkt 0 0)).pos.toNat < 60 := by decide

theorem test_w_desync : (inPhase .seek).resets.toNat < 1023 ∧
    ({ inPhase .seek with resets := 1022 }).resets.toNat < 1023 := by decide

theorem test_w_halted :
    ((inPhase .halt).phase = .halt ∧ hostMove (inPhase .halt) = none) ∧
    hostMove { inPhase .halt with hostIn := [some (.cfgRd 8)] } ≠ some .reset ∧
    answers (step { inPhase .halt with hostIn := [some (.cfgRd 8)] }) (fun t => t.replies = [18])
      = true := by decide

theorem cleanPackets_sequence :
    ∀ q p, cleanPackets[q]? = some p → packetByte p 1 = q := by
  have key : ∀ q, q < 60 → packetByte (cleanPacket q) 1 = q := by decide +kernel
  intro q p h
  obtain ⟨hq, rfl⟩ := List.getElem?_eq_some_iff.1 h
  have hq' : q < 60 := by simpa [cleanPackets] using hq
  simpa [cleanPackets] using key q hq'

/-- The clean pass of the synchronizer, high-res with segment 3. -/
theorem test_w_cleanPass :
    ∃ s : State, s.phase = .seek ∧ s.pos = 0 ∧ s.resets = 0 ∧ s.hostIn = [] ∧ s.cfgVariant = 1 ∧
      s.busIn = cleanPackets.map .packet ++ [] ∧ cleanPackets.length = 60 ∧
      (∀ q p, cleanPackets[q]? = some p → packetByte p 1 = q) ∧
      (∀ p, s.cfgVariant = 1 → cleanPackets[20]? = some p →
        1 ≤ packetByte p 0 / 16 ∧ packetByte p 0 / 16 ≤ 4) := by
  refine ⟨{ inPhase .seek with cfgVariant := 1, busIn := cleanPackets.map .packet }, rfl, rfl, rfl, rfl,
    rfl, (List.append_nil _).symm, by decide, cleanPackets_sequence, fun p _ h => ?_⟩
  have key : cleanPackets[20]? = some (cleanPacket 20) := rfl
  obtain rfl : cleanPacket 20 = p := by simpa [key] using h
  decide +kernel

theorem test_w_rebootCycle :
    ∃ (s : State) (packets : List Packet), s.phase = .seek ∧ s.pos = 0 ∧ s.resets = 0 ∧ s.segId = 0 ∧
      s.busOpen = true ∧ s.hostIn = [] ∧ s.busIn = packets.map .packet ++ [] ∧
      packets.length = 750 ∧ ∀ p ∈ packets, packetByte p 1 ≠ 0 := by
  refine ⟨{ inPhase .seek with busIn := (List.replicate 750 (pkt 0 99)).map .packet },
    List.replicate 750 (pkt 0 99), rfl, rfl, rfl, rfl, rfl, rfl, (List.append_nil _).symm,
    List.length_replicate, fun p hp => ?_⟩
  rw [(List.mem_replicate.1 hp).2]
  decide

theorem test_w_segmentStores :
    (({ inPhase .reasm with cfgVariant := 1, segId := 1 } : State).segId.toNat = 1) ∧
    (({ inPhase .reasm with cfgVariant := 1, segId := 3 } : State).segId.toNat = 3) ∧
    (({ inPhase .reasm with cfgVariant := 1, segId := 4 } : State).segId.toNat = 4) ∧
    (inPhase .reasm).cfgVariant = 0 ∧
    ¬ (1 ≤ (inPhase .reasm).segId.toNat ∧ (inPhase .reasm).segId.toNat ≤ 4) ∧
    ¬ (1 ≤ (5#4).toNat ∧ (5#4).toNat ≤ 4) ∧ ¬ (1 ≤ (15#4).toNat ∧ (15#4).toNat ≤ 4) := by decide

/-- The first and the last sample position of a frame, low-res and high-res; the rows' ends. -/
theorem test_w_positions :
    (0 < Config.segCount 0 ∧ 3 < Config.segCount 1 ∧ ¬ 1 < Config.segCount 0) ∧
    (2 < 4920 ∧ 2 ≤ 2 % 82) ∧ (4919 < 4920 ∧ 2 ≤ 4919 % 82) ∧ ¬ (2 ≤ 82 % 82) ∧
    (59 < Config.height 0 ∧ 79 < Config.width 0) ∧ (119 < Config.height 1 ∧ 159 < Config.width 1) := by
  decide

theorem test_w_frameSample :
    isPayload 84 ∧ 0 < Config.segCount (frameIn .extract).cfgVariant ∧
    slotSample (frameIn .extract) 0 84 = 100 ∧ FrameHas (frameIn .extract) 100 := by
  have h : isPayload 84 := ⟨by decide, by decide⟩
  have h0 : 0 < Config.segCount (frameIn .extract).cfgVariant := by decide
  have h1 : slotSample (frameIn .extract) 0 84 = 100 := by decide
  exact ⟨h, h0, h1, by decide, 0, 84, h0, h, h1⟩

theorem test_w_otherCell :
    ∀ k i, k < Config.segCount (inPhase .extract).cfgVariant → isPayload i →
      slotSample (inPhase .extract) k i ≠ 0 → 160 * (positionOf i k 0).1 + (positionOf i k 0).2 ≠ 0 := by
  intro k i hk _ hs
  obtain rfl : k = 0 := by
    have h1 : Config.segCount (inPhase .extract).cfgVariant = 1 := rfl
    omega
  have h0 : slotSample (inPhase .extract) 0 i = 0 := by
    simp [slotSample, State.slot, inPhase, base, State.resetWith]
  exact absurd h0 hs

theorem test_w_populated :
    answers (step { inPhase .attBegin with grid := [(3, 9)] }) (fun t => readAt 0 t.grid 3 = 9) = true ∧
    hostMove { inPhase .attBegin with grid := [(3, 9)] } ≠ some .reset := by decide

theorem test_w_range :
    (inPhase .range).cfgAuto ≠ 0 ∧ ({ inPhase .range with cfgAuto := 0 }).cfgAuto = 0 ∧
    ((2#2).getLsbD 1 = true ∧ (2#2).getLsbD 0 = false) ∧
    ((1#2).getLsbD 1 = false ∧ (1#2).getLsbD 0 = true) ∧
    ((9#16).toNat : Int) - (9#16).toNat < 1 ∧ 1 ≤ ((10#16).toNat : Int) - (9#16).toNat := by decide

theorem test_w_map :
    selectPalette testParams (inPhase .map).cfgPalette = some testPalette ∧
    ({ frameIn .map with diff := 4900 }).diff ≠ 0 ∧ slotSample (frameIn .map) 0 2502 = 2550 ∧
    (127 : Int) * 4900 ≤ (2550 - 100) * 255 ∧ (2550 - 100) * 255 < ((127 : Int) + 1) * 4900 := by
  refine ⟨rfl, by decide, by decide, by decide, by decide⟩

theorem test_w_clamp :
    ((1#16) ≠ 0 ∧ (999#16).toNat < (1000#16).toNat) ∧
    (testPalette.len = 768 ∧ 256 ≤ scaledValue 1000 255 2000) ∧
    (shortPalette.len = 767 ∧ scaledValue 100 4900 5000 = 255) ∧
    ((testPalette.len : Int) ≤ 768 ∧ 767 < testPalette.len ∧ 0 < testPalette.len) ∧
    (4900#16).toNat = (5000#16).toNat - (100#16).toNat := by decide +kernel

theorem test_w_poll :
    (base.pollIn.head?.join = none ∧ ([none] : List (Option (List Byte))).head?.join = none) ∧
    ({ base with pollIn := [some [0x46, 0x46, 0x43]] }).pollIn.head?.join = some [0x46, 0x46, 0x43] := by
  decide

theorem test_w_raw : testParams.outBigEndian = false ∧
    ({ testParams with outBigEndian := true }).outBigEndian = true := by decide

theorem test_w_readyFrame :
    (frameIn .extract).phase = .extract ∧ (frameIn .extract).hostIn = [] ∧
    (frameIn .extract).cfgPalette ≠ 3 := by decide

/-- A low-res pass whose samples are all 0x0101. -/
theorem test_w_endToEnd :
    ∃ packets : List Packet, testParams.outBigEndian = false ∧ packets.length = 60 ∧
      (∀ q p, packets[q]? = some p → packetByte p 1 = q) ∧
      ∀ p ∈ packets, ∀ n, n < 80 → packetByte p (4 + 2 * n) * 256 + packetByte p (5 + 2 * n) ≠ 0 := by
  have key : ∀ q, q < 60 → packetByte ((Vector.replicate 164 1).set 1 (BitVec.ofNat 8 q)) 1 = q := by
    decide +kernel
  have key2 : ∀ q, q < 60 → ∀ n, n < 80 →
      packetByte ((Vector.replicate 164 1).set 1 (BitVec.ofNat 8 q)) (4 + 2 * n) * 256 +
        packetByte ((Vector.replicate 164 1).set 1 (BitVec.ofNat 8 q)) (5 + 2 * n) ≠ 0 := by
    intro q _ n hn
    have h1 : ∀ b, 1 < b → b < 164 →
        packetByte ((Vector.replicate 164 1).set 1 (BitVec.ofNat 8 q)) b = 1 := by
      intro b hb hb'
      have h2 : 1 ≠ b := by omega
      simp only [packetByte, List.getD_eq_getElem?_getD, Vector.toList_set, Vector.toList_replicate,
        List.getElem?_set_ne h2, List.getElem?_replicate, if_pos hb', Option.getD_some]
      rfl
    rw [h1 _ (by omega) (by omega), h1 _ (by omega) (by omega)]
    decide
  refine ⟨(List.range 60).map fun q => (Vector.replicate 164 1).set 1 (BitVec.ofNat 8 q), rfl, by simp,
    ?_, ?_⟩
  · intro q p h
    obtain ⟨hq, rfl⟩ := List.getElem?_eq_some_iff.1 h
    have hq' : q < 60 := by simpa using hq
    simpa using key q hq'
  · intro p hp n hn
    obtain ⟨q, hq, rfl⟩ := List.mem_map.1 hp
    exact key2 q (List.mem_range.1 hq) n hn

theorem test_w_stepRuns :
    hostMove { base with hostIn := [some (.start true)] } = some (.start true) ∧
    (hostMove (inPhase .extract) = none ∧
      decode (phaseSelector (inPhase .extract) .first) = .ok .rsmExtract ∧
      (inPhase .extract).phase ≠ .range) ∧
    (hostMove (inPhase .range) = none ∧
      decode (phaseSelector (inPhase .range) .first) = .ok .rngScan) :=
  ⟨rfl, ⟨rfl, rfl, by decide⟩, rfl, rfl⟩

theorem test_w_waits :
    (hostMove base = none ∧ base.phase = .idle) ∧
    (hostMove (inPhase .seek) = none ∧ (inPhase .seek).busIn = []) := by decide

/-- A step of the core and one of the host, for the statements about every step. -/
theorem test_w_steps :
    (answers (step (inPhase .attBegin)) (fun t => t.phase = .seek) = true ∧
      hostMove (inPhase .attBegin) = none ∧ (inPhase .attBegin).phase ≠ .idle) ∧
    (answers (step { base with hostIn := [some (.start false)] })
        (fun t => t.trace.length = 1 && t.causes = [.netSetupFailure]) = true ∧
      hostMove { base with hostIn := [some (.start false)] } ≠ some .reset) := by decide

/-- Operations outside every list of writers complete, so that the frame statements speak of them. -/
theorem test_w_frames :
    (answers (exec .attBegin base) (fun _ => true) = true ∧ (.attBegin : Instr) ∉
      [.pktRd, .reset, .rsmStoreLr, .rsmStoreHr, .rsmStoreHr4, .rsmExtract, .palMap]) ∧
    (answers (exec .rbtClose base) (fun _ => true) = true ∧ (.rbtClose : Instr) ∉
      [.attBegin, .pktAccept, .pktDesync, .rbtReboot, .rsmInvalid, .reset, .pktRd, .rngScan, .rngScale]) ∧
    (answers (exec .rbtWarm base) (fun _ => true) = true ∧
      (.rbtWarm : Instr) ∉ [.rbtClose, .rbtOpen]) := by decide

theorem test_w_outOfRange :
    faults (exec .pktAccept { base with pos := 60 }) .posOutOfRange ∧
    faults (exec .pktRd (seekAt 60 0 (pkt 0 60))) .posOutOfRange ∧
    faults (exec .pktDesync { base with resets := 1023 }) .registerOverflow ∧
    faults (exec .rsmStoreHr base) .noShelfSlot ∧
    faults (exec .palMap { base with cfgPalette := 3 }) .noPalette ∧
    faults (exec .palMap { base with diff := 0 }) .zeroDiff := by decide +kernel

/-- States that differ in a stale byte of packet slot 1 while position 1 is awaited. -/
theorem test_w_stalePackets :
    SequencerInv (seekAt 1 0 (pkt 0 1)) ∧
    SameButStalePackets (seekAt 1 0 (pkt 0 1)) { seekAt 1 0 (pkt 0 1) with pktbuf := [(200, 7)] } ∧
    answers (step (seekAt 1 0 (pkt 0 1))) (fun t => t.pos = 2) = true := by
  refine ⟨?_, ⟨rfl, by decide, ?_, ?_⟩, by decide +kernel⟩
  · simp [SequencerInv, posAllowed, resetsAllowed, segAllowed, handleAllowed, seekAt, inPhase, base,
      State.resetWith]
  · intro _ b hb
    have h : b < 164 := hb
    show readAt 0 [(200, 7)] b = readAt 0 [] b
    rw [readAt_cons, if_neg (by omega)]
  · intro h
    cases h

/-! ### Witnesses of the invariants at reset and on the way -/

theorem test_w_sequencer_last_position :
    SequencerInv { inPhase .seek with pos := 59, resets := 749, cfgVariant := 1, segId := 4 } := by
  simp [SequencerInv, posAllowed, resetsAllowed, segAllowed, handleAllowed, inPhase, base,
    State.resetWith, segValid]

theorem test_w_sequencer_threshold :
    SequencerInv { inPhase .backoff with resets := 750 } := by
  simp [SequencerInv, posAllowed, resetsAllowed, segAllowed, handleAllowed, inPhase, base,
    State.resetWith]

theorem test_w_sequencer_aborted :
    SequencerInv { inPhase .reasm with pos := 20, cfgVariant := 1, segId := 5 } := by
  simp [SequencerInv, posAllowed, resetsAllowed, segAllowed, handleAllowed, inPhase, base,
    State.resetWith, segValid]

theorem test_w_rangeInv :
    RangeInv { inPhase .map with
      cfgAuto := 0, cfgMin := 9000, cfgMax := 7000, rangeMin := 9000, rangeMax := 7000, diff := 1,
      rangeDegenerate := true } := by
  unfold RangeInv; decide

theorem test_w_memoryInv :
    MemoryInv { inPhase .pubRaw with grid := [(0, 100), (9519, 5000)], preview := [(4799, ⟨255, 0, 254⟩)] } := by
  refine ⟨by decide, ?_, by decide, by decide, ?_, ?_⟩
  · decide
  · intro h
    cases h
  · intro _ r c hr hc h
    show readAt 0 [(0, (100 : Sample)), (9519, 5000)] (160 * r + c) = 0
    simp only [readAt_cons, readAt_nil]
    rw [if_neg (by omega), if_neg (by omega)]

/-- A complete high-res pass with segment 3 acquired, and the same segment already on the shelf. -/
theorem test_w_segmentInv :
    SegmentInv { inPhase .reasm with
      cfgVariant := 1, pos := 60, segId := 3, pktbuf := cleanBuffer, shelf := #v[[], [], cleanBuffer, []] } ∧
    SequencerInv { inPhase .reasm with
      cfgVariant := 1, pos := 60, segId := 3, pktbuf := cleanBuffer, shelf := #v[[], [], cleanBuffer, []] } := by
  have hs : Sequenced cleanBuffer 60 := by unfold Sequenced; decide +kernel
  have hg : segField (headerAt cleanBuffer 20) = 3 := by decide +kernel
  constructor
  · refine ⟨fun h => by (cases h), fun _ _ => hs, fun _ _ => hg, ?_, fun h => by (cases h),
      fun h => by (cases h)⟩
    intro k hk
    match k, hk with
    | 0, _ => exact .inl rfl
    | 1, _ => exact .inl rfl
    | 2, _ => exact .inr ⟨hs, fun _ => by rw [show State.slot _ 2 = cleanBuffer from rfl, hg]; rfl⟩
    | 3, _ => exact .inl rfl
  · simp [SequencerInv, posAllowed, resetsAllowed, segAllowed, handleAllowed, inPhase, base,
      State.resetWith, segValid]

theorem test_w_traceInvs :
    HandleInv { inPhase .seek with trace := [.busOpen 7 1000, .busClose 7, .sensorReboot, .busOpen 7 1000] } ∧
    CalibrationInv { inPhase .seek with
      trace := [.sensorCalibrate], calls := [.netPoll (some [0x46, 0x46, 0x43]), .netPoll none] } ∧
    PublishInv { inPhase .pubPreview with trace := [.netSend []] } := by
  unfold HandleInv CalibrationInv PublishInv
  decide

/-- All the invariants' premises together, in a state whose next step is the host's START. -/
theorem test_w_all_invariants :
    ∃ s : State, SequencerInv s ∧ RangeInv s ∧ MemoryInv s ∧ SegmentInv s ∧ HandleInv s ∧
      CalibrationInv s ∧ PublishInv s ∧ answers (step s) (fun t => t.phase = .attBegin) = true := by
  have hslot : ∀ k, k < 4 → State.slot { base with hostIn := [some (.start true)] } k = [] := by decide
  refine ⟨{ base with hostIn := [some (.start true)] }, ?_, ?_, ?_, ?_, ?_, ?_, ?_, by decide⟩
  · simp [SequencerInv, posAllowed, resetsAllowed, segAllowed, handleAllowed, base, State.resetWith]
  · unfold RangeInv
    decide
  · refine ⟨by decide, ?_, by decide, by decide, fun _ => ⟨rfl, rfl⟩, fun _ _ _ _ _ _ => rfl⟩
    intro k hk
    rw [hslot k hk]
    decide
  · refine ⟨?_, ?_, ?_, fun k hk => .inl (hslot k hk), fun _ k _ hk => hslot k hk,
      fun _ k hk => hslot k hk⟩
    · intro h
      cases h
    · intro h
      cases h
    · intro h
      cases h
  · unfold HandleInv
    decide
  · unfold CalibrationInv
    decide
  · unfold PublishInv
    decide

/-- The invariants' premises in a running state whose next step completes a segment. -/
theorem test_w_running_invariants :
    SequencerInv { frameIn .extract with pos := 60 } ∧ RangeInv { frameIn .extract with pos := 60 } ∧
    HandleInv { frameIn .extract with pos := 60, trace := [.busOpen 7 1000] } ∧
    hostMove { frameIn .extract with pos := 60 } = none := by
  refine ⟨?_, ?_, ?_, rfl⟩
  · simp [SequencerInv, posAllowed, resetsAllowed, segAllowed, handleAllowed, frameIn, inPhase, base,
      State.resetWith]
  · unfold RangeInv
    decide
  · unfold HandleInv
    decide

theorem test_w_wf_encode :
    (Instr.pktSegok 4).wf = true ∧ decode (encode (.pktSegok 4)) = .ok (.pktSegok 4) ∧
    decode (encode (.pktSegbad 15)) = .ok (.pktSegbad 15) ∧
    decode (encode .pktDesync) = .ok .pktDesync := ⟨rfl, rfl, rfl, rfl⟩

end Sys2Proof.Tests
end

namespace Sys2Proof.Machine

/-! ### The reset state (10_state.md R30) -/

/-- The shelf is empty after reset, and there is no slot beyond it (log entry 4). -/
@[simp] theorem slot_resetWith (p : Params) (k : Nat) : (State.resetWith p).slot k = [] := by
  by_cases hk : k < 4
  · simp [State.slot, Vector.getElem?_eq_getElem hk]
  · simp [State.slot, Vector.getElem?_eq_none (Nat.le_of_not_lt hk)]

/-- `State.reset` is the reset state whose parameters are the open ones (log entry 1). -/
theorem reset_eq_resetWith : State.reset = State.resetWith Config.params := rfl

/-- Settles O6: the registers, flags and configuration by the law of each field, the memories because
each is the empty memory, which reads as its default everywhere. -/
theorem stateAfterResetIsTheTable : Obligations.StateAfterResetIsTheTable := by
  unfold Obligations.StateAfterResetIsTheTable
  rw [reset_eq_resetWith]
  have slots (k b : Nat) : readAt 0 ((State.resetWith Config.params).slot k) b = 0 := by
    rw [slot_resetWith, readAt_nil]
  have cells (n : Nat) : readAt 0 (State.resetWith Config.params).grid n = 0 := by
    rw [resetWith_grid, readAt_nil]
  have pixels (n : Nat) : readAt Pixel.black (State.resetWith Config.params).preview n = ⟨0, 0, 0⟩ := by
    rw [resetWith_preview, readAt_nil, Pixel.black]
  refine ⟨?registers, ?flags, ?configuration, slots, cells, pixels, resetWith_trace _⟩
  case registers => simp
  case flags => simp
  case configuration => simp [Config.params]

end Sys2Proof.Machine

namespace Sys2Proof.Machine

/-! ### The ordered test on a packet's bytes (30_encoding.md R61 to R63) -/

theorem packetByte_eq_getElem (p : Packet) (b : Nat) (h : b < 164) : packetByte p b = p[b].toNat := by
  simp [packetByte, h]

/-- `SEQ` is byte 1 (30_encoding.md R61). -/
theorem seqField_packetHeader (p : Packet) :
    (seqField (packetHeader p)).toNat = packetByte p 1 := by
  rw [packetHeader, seqField_header, packetByte_eq_getElem p 1 (by decide)]

/-- `SEG` is the high nibble of byte 0 (30_encoding.md R61). -/
theorem segField_packetHeader (p : Packet) :
    segField (packetHeader p) = BitVec.ofNat 4 (packetByte p 0 / 16) := by
  rw [packetHeader, segField_header, packetByte_eq_getElem p 0 (by decide)]

/-- The high nibble of a byte is below 16, so `SEG` holds it whole. -/
theorem segField_packetHeader_toNat (p : Packet) :
    (segField (packetHeader p)).toNat = packetByte p 0 / 16 := by
  have hbyte : packetByte p 0 < 256 := BitVec.isLt _
  rw [segField_packetHeader, BitVec.toNat_ofNat, Nat.mod_eq_of_lt (by omega)]

theorem segValid_packetHeader (p : Packet) :
    segValid (segField (packetHeader p)) = true ↔
      1 ≤ packetByte p 0 / 16 ∧ packetByte p 0 / 16 ≤ 4 := by
  simp [segValid, segField_packetHeader_toNat]

/-- The ordered test of 30_encoding.md R62 in the packet's bytes, which its clauses are read off. -/
theorem decodePacket_packetHeader (p : Packet) (pos : BitVec 6) (v : BitVec 1) :
    decodePacket (some (packetHeader p)) pos v =
      if packetByte p 1 ≠ pos.toNat then .desync
      else if v = 1 ∧ pos.toNat = 20 then
        if 1 ≤ packetByte p 0 / 16 ∧ packetByte p 0 / 16 ≤ 4 then
          .segok (BitVec.ofNat 4 (packetByte p 0 / 16))
        else .segbad (BitVec.ofNat 4 (packetByte p 0 / 16))
      else .accept := by
  have htest := decodePacket_cases (packetHeader p) pos v
  rw [← Bool.not_eq_true, segValid_packetHeader, seqField_packetHeader, segField_packetHeader] at htest
  obtain ⟨hseq, hop⟩ | ⟨hseq, hv, hpos, hseg, hop⟩ | ⟨hseq, hv, hpos, hseg, hop⟩ |
    ⟨hseq, hplain, hop⟩ := htest
  · rw [hop, if_pos hseq]
  · rw [hop, if_neg (not_not_intro hseq), if_pos ⟨hv, hpos⟩, if_pos hseg]
  · rw [hop, if_neg (not_not_intro hseq), if_pos ⟨hv, hpos⟩, if_neg hseg]
  · have hplain : ¬ (v = 1 ∧ pos.toNat = 20) := hplain
    rw [hop, if_neg (not_not_intro hseq), if_neg hplain]

/-- Settles O8: each clause follows one branch of the ordered test on the packet's bytes. -/
theorem packetBytesSelectOneOperation : Obligations.PacketBytesSelectOneOperation := by
  unfold Obligations.PacketBytesSelectOneOperation
  refine fun pos variant => ⟨rfl, fun p => ?_⟩
  rw [decodePacket_packetHeader]
  refine ⟨?desync, ?segok, ?segbad, ?accept⟩
  case desync => exact fun hseq => if_pos hseq
  case segok =>
    intro hseq hv hpos hlow hhigh
    rw [if_neg (not_not_intro hseq), if_pos ⟨hv, hpos⟩, if_pos ⟨hlow, hhigh⟩]
  case segbad =>
    intro hseq hv hpos hseg
    rw [if_neg (not_not_intro hseq), if_pos ⟨hv, hpos⟩, if_neg hseg]
  case accept =>
    intro hseq hplain
    rw [if_neg (not_not_intro hseq), if_neg hplain]

end Sys2Proof.Machine

namespace Sys2Proof.Machine

/-! ### The operation a phase selects alone (30_encoding.md R70) -/

/-- A phase whose code decodes alike under all conditions selects that operation. -/
theorem selectedIn_of_decodePhase {i : Instr} {p : Phase}
    (h : ∀ variant segId auto, decodePhase p.code variant segId auto = .ok i) : SelectedIn i p := by
  rintro s rfl
  exact h s.cfgVariant s.segId s.cfgAuto

/-! ### Reading a packet (40_synchronizer.md R80, R82) -/

/-- Running a packet operation is executing the operation of the table it names. -/
theorem runPacketOp_eq_exec (op : PacketOp) (s : State) : runPacketOp op s = exec op.instr s := by
  cases op <;> rfl

/-- PKT.DESYNC where the count still fits its register (40_synchronizer.md R86). -/
theorem exec_pktDesync_of_lt {s : State} (hresets : s.resets.toNat < 1023) :
    exec .pktDesync s = .next (goto .backoff { raiseCause .transientDesync s with
      pos := 0, segId := 0, resets := s.resets + 1 }) :=
  if_pos (by omega)

/-- Inside the ranges of `pos` and `resets` every packet operation completes. -/
theorem exec_packetOp_completes (op : PacketOp) {s : State} (hpos : s.pos.toNat < 60)
    (hresets : s.resets.toNat < 1023) : ∃ t, exec op.instr s = .next t := by
  cases op with
  | accept => exact ⟨_, execPktAccept_eq s hpos⟩
  | segok seg => exact ⟨_, rfl⟩
  | segbad seg => exact ⟨_, rfl⟩
  | desync => exact ⟨_, exec_pktDesync_of_lt hresets⟩
  | fatal => exact ⟨_, rfl⟩

/-- PKT.RD with a packet delivered: the selected operation on the state with the packet stored. -/
theorem exec_pktRd_packet {s : State} {p : Packet} {rest : List BusAnswer}
    (hbus : s.busIn = .packet p :: rest) (hpos : s.pos.toNat < 60) :
    exec .pktRd s =
      exec (decodePacket (some (packetHeader p)) s.pos s.cfgVariant).instr (packetStored s p rest) := by
  have hslot : ¬ Config.packetsPerFrame ≤ s.pos.toNat := Nat.not_le_of_lt hpos
  rw [← runPacketOp_eq_exec]
  show execPktRd s = _
  rw [execPktRd, hbus]
  exact if_neg hslot

/-- PKT.RD with `BusFatal` delivered: PKT.FATAL, nothing stored. -/
theorem exec_pktRd_fatal {s : State} {rest : List BusAnswer} (hbus : s.busIn = .fatal :: rest) :
    exec .pktRd s = exec .pktFatal (logCall .busRead { s with busIn := rest }) := by
  show execPktRd s = _
  rw [execPktRd, hbus]
  rfl

/-- The bytes of `pktbuf` once a packet is stored: its own in the slot `pos` names, the old ones
elsewhere (20_memory.md R41). -/
theorem readAt_packetStored (s : State) (p : Packet) (rest : List BusAnswer) (a : Nat) :
    readAt 0 (packetStored s p rest).pktbuf a =
      if 164 * s.pos.toNat ≤ a ∧ a < 164 * s.pos.toNat + 164 then
        p.toList.getD (a - 164 * s.pos.toNat) 0
      else readAt 0 s.pktbuf a := by
  have hlen : p.toList.length = 164 := Vector.length_toList
  rw [packetStored, storePacket_pktbuf, readAt_writeFrom, hlen]
  rfl

/-- Settles O10: the intermediate state is the one with the packet stored, on which the selected
operation completes because `pos` and `resets` are in range. -/
theorem pktRdStoresThenRunsSelected : Obligations.PktRdStoresThenRunsSelected := by
  unfold Obligations.PktRdStoresThenRunsSelected
  refine ⟨selectedIn_of_decodePhase fun _ _ _ => rfl, ?packet, fun s rest => exec_pktRd_fatal⟩
  intro s p rest hbus hpos hresets
  have hselected := exec_pktRd_packet hbus hpos
  obtain ⟨u, hu⟩ := exec_packetOp_completes
    (decodePacket (some (packetHeader p)) s.pos s.cfgVariant)
    (s := packetStored s p rest) hpos hresets
  refine ⟨packetStored s p rest, u, hselected.trans hu, hu, rfl, ?slot, ?elsewhere,
    headerAt_storePacket p _⟩
  case slot =>
    intro b hb
    rw [readAt_packetStored, if_pos (by omega), Nat.add_sub_cancel_left, packetByte]
  case elsewhere =>
    intro a ha
    rw [readAt_packetStored, if_neg ha]

/-! ### The accepted packet (40_synchronizer.md R83) -/

/-- Within a pass the next position is a multiple of the poll period at the 20th, 40th and 60th
packet only. -/
theorem pollPoint_iff {pos : BitVec 6} (hpos : pos.toNat < 60) :
    (pos + 1).toNat % 20 = 0 ↔ pos.toNat ∈ [19, 39, 59] := by
  rw [pos_succ_toNat pos hpos]
  simp only [List.mem_cons, List.not_mem_nil, or_false]
  omega

/-- Settles O11: the poll is the only difference between a position at a poll point and another. -/
theorem pktAcceptAdvancesAndPolls : Obligations.PktAcceptAdvancesAndPolls := by
  unfold Obligations.PktAcceptAdvancesAndPolls
  intro s hpos
  have hnext : s.pos + 1 = BitVec.ofNat 6 (s.pos.toNat + 1) := by
    apply BitVec.eq_of_toNat_eq
    simp
  have hlast : (s.pos + 1).toNat = 60 ↔ s.pos.toNat = 59 := by
    rw [pos_succ_toNat s.pos hpos]
    omega
  show execPktAccept s = _
  rw [execPktAccept_eq s hpos]
  simp only [packetAccepted, pollPoint_iff hpos, hlast]
  rw [hnext]
  by_cases hpoll : s.pos.toNat ∈ [19, 39, 59]
  · simp only [if_pos hpoll]
    rw [pollCommand_eq]
    rfl
  · simp only [if_neg hpoll, List.append_nil]
    rfl

/-! ### Bus fatality (40_synchronizer.md R87, 60_exceptions.md R161) -/

/-- Outside IDLE a host move other than RESET can only add a reply (45_host_control.md R146 to R148). -/
theorem exec_hostAction_outside_idle {a : HostAction} {s t : State} (hphase : s.phase ≠ .idle)
    (ha : a ≠ .reset) (h : exec a.instr s = .next t) : t = { s with replies := t.replies } := by
  cases a with
  | cfgWr num value =>
    have hignored : exec (.cfgWr num value) s = .next s := if_pos hphase
    cases hignored.symm.trans h
    rfl
  | cfgRd num =>
    cases h
    rfl
  | start netOk =>
    have hignored : exec (.start netOk) s = .next s := if_pos hphase
    cases hignored.symm.trans h
    rfl
  | reset => exact absurd rfl ha

/-- In HALT the core has no step of its own. -/
theorem step_halt {s : State} (hphase : s.phase = .halt) (hmove : hostMove s = none) :
    step s = .fault .halted := by
  have hcore : (takeHost s).phase = .halt := hphase
  rw [step_eq, hmove, coreStep_eq, hcore]

/-- Settles O14: without a host move HALT stops the step, so one that goes on is a host move, and
all of those but RESET are idle outside IDLE. -/
theorem busFatalHaltsUntilReset : Obligations.BusFatalHaltsUntilReset := by
  unfold Obligations.BusFatalHaltsUntilReset
  refine ⟨fun s => rfl, fun s => step_halt, fun s t hphase hmove hstep => ?_⟩
  obtain ⟨a, ha, hexec⟩ | ⟨hnone, -⟩ := step_next_cases hstep
  · have hrunning : (takeHost s).phase ≠ .idle := by
      rw [show (takeHost s).phase = .halt from hphase]
      decide
    exact exec_hostAction_outside_idle hrunning (fun hreset => hmove (hreset ▸ ha)) hexec
  · rw [step_halt hphase hnone] at hstep
    cases hstep

/-! ### The other operations of the synchronizer (40_synchronizer.md R81, R84 to R92) -/

/-- Settles O7: the poll reads neither of the cleared registers. -/
theorem attBeginClearsPassAndPolls : Obligations.AttBeginClearsPassAndPolls := by
  unfold Obligations.AttBeginClearsPassAndPolls
  refine ⟨selectedIn_of_decodePhase fun _ _ _ => rfl, fun s => ?_⟩
  show execAttBegin s = _
  rw [execAttBegin, pollCommand_eq]
  rfl

/-- Settles O12: both operations are unconditional. -/
theorem segmentIdentifierAcceptedOrAborts : Obligations.SegmentIdentifierAcceptedOrAborts := by
  unfold Obligations.SegmentIdentifierAcceptedOrAborts
  exact fun seg s => ⟨rfl, rfl⟩

/-- Settles O13: below 1023 the increment fits the register. -/
theorem desyncRestartsAtPositionZero : Obligations.DesyncRestartsAtPositionZero := by
  unfold Obligations.DesyncRestartsAtPositionZero
  intro s hresets
  have hnext : s.resets + 1 = BitVec.ofNat 10 (s.resets.toNat + 1) := by
    apply BitVec.eq_of_toNat_eq
    simp
  rw [exec_pktDesync_of_lt hresets, hnext]
  rfl

/-- Settles O15: the wait leaves `resets` as it was, so the test splits on the count before it. -/
theorem backoffWaitsThenTestsThreshold : Obligations.BackoffWaitsThenTestsThreshold := by
  unfold Obligations.BackoffWaitsThenTestsThreshold
  refine ⟨selectedIn_of_decodePhase fun _ _ _ => rfl, fun s => ?_⟩
  by_cases hthreshold : s.resets.toNat = 750
  · rw [if_pos hthreshold, if_pos hthreshold]
    exact if_pos hthreshold
  · rw [if_neg hthreshold, if_neg hthreshold]
    exact if_neg hthreshold

/-- Settles O16: each operation of the recovery is unconditional and selected by its phase code. -/
theorem recoveryOperations : Obligations.RecoveryOperations := by
  unfold Obligations.RecoveryOperations
  refine ⟨⟨?close, ?reboot, ?warm, ?reopen⟩, fun s => ⟨rfl, rfl, rfl, rfl⟩⟩
  all_goals exact selectedIn_of_decodePhase fun _ _ _ => rfl

end Sys2Proof.Machine

namespace Sys2Proof.Machine

/-! ### The operation phase REASM selects (41_reassembler.md R100) -/

theorem segValid_iff (seg : BitVec 4) : segValid seg = true ↔ 1 ≤ seg.toNat ∧ seg.toNat ≤ 4 := by
  simp [segValid]

/-- The choice of R100 by variant and segment identifier. -/
theorem decode_reasm {s : State} (hphase : s.phase = .reasm) :
    decode (phaseSelector s .first) =
      if s.cfgVariant = 0 then .ok .rsmStoreLr
      else if !segValid s.segId then .ok .rsmInvalid
      else if s.segId = 4 then .ok .rsmStoreHr4
      else .ok .rsmStoreHr := by
  rw [phaseSelector, hphase]
  rfl

/-- In high-res an identifier outside 1 .. 4 selects the counting operation (R104). -/
theorem decode_reasm_invalid {s : State} (hphase : s.phase = .reasm) (hvariant : s.cfgVariant = 1)
    (hseg : ¬ (1 ≤ s.segId.toNat ∧ s.segId.toNat ≤ 4)) :
    decode (phaseSelector s .first) = .ok .rsmInvalid := by
  have hinvalid : segValid s.segId = false := by rwa [← Bool.not_eq_true, segValid_iff]
  simp [decode_reasm hphase, hvariant, hinvalid]

/-- In high-res an identifier in 1 .. 4 selects a store, and 4 the one that completes a frame
(R102, R103). -/
theorem decode_reasm_valid {s : State} (hphase : s.phase = .reasm) (hvariant : s.cfgVariant = 1)
    (hseg : 1 ≤ s.segId.toNat ∧ s.segId.toNat ≤ 4) :
    decode (phaseSelector s .first) = .ok (if s.segId.toNat = 4 then .rsmStoreHr4 else .rsmStoreHr) := by
  have hlast : s.segId = 4#4 ↔ s.segId.toNat = 4 := BitVec.toNat_inj.symm
  rw [decode_reasm hphase, hvariant, (segValid_iff _).2 hseg]
  by_cases h : s.segId.toNat = 4 <;> simp [hlast, h]

/-! ### Storing a segment (41_reassembler.md R101 to R104) -/

/-- A store into a slot of the shelf copies `pktbuf` whole and leaves the other slots (20_memory.md R49). -/
theorem storesSlot_storeSegment (p : Phase) {k : Nat} (s : State) (hk : k < 4) :
    StoresSlot s (goto p (storeSegment k s)) k := by
  have hslot (j : Nat) : (goto p (storeSegment k s)).slot j =
      if j = k then below 9840 s.pktbuf else s.slot j := slot_storeSegment k j s hk
  refine ⟨fun b hb => ?_, fun j hj => ?_⟩
  · rw [hslot, if_pos rfl, readAt_below, if_pos hb]
  · rw [hslot, if_neg hj]

/-- RSM.STORE_HR with an identifier that names a slot (R102). -/
theorem exec_rsmStoreHr_of_valid {s : State} (hseg : 1 ≤ s.segId.toNat ∧ s.segId.toNat ≤ 4) :
    exec .rsmStoreHr s = .next (goto .attBegin (storeSegment (s.segId.toNat - 1) s)) :=
  if_pos ((segValid_iff _).2 hseg)

/-- Settles O19: the three stores are one store into a slot that the shelf has. -/
theorem segmentStoresFillOneSlot : Obligations.SegmentStoresFillOneSlot := by
  unfold Obligations.SegmentStoresFillOneSlot
  refine ⟨?selectLr, ?selectHr, ?selectHr4, ?storeLr, ?storeHr, ?storeHr4⟩
  case selectLr =>
    intro s hphase hvariant
    rw [decode_reasm hphase, if_pos hvariant]
  case selectHr =>
    intro s hphase hvariant hlow hhigh
    rw [decode_reasm_valid hphase hvariant (by omega), if_neg (by omega)]
  case selectHr4 =>
    intro s hphase hvariant hseg
    rw [decode_reasm_valid hphase hvariant (by omega), if_pos hseg]
  case storeLr => exact fun s => ⟨_, rfl, rfl, storesSlot_storeSegment .extract s (by decide)⟩
  case storeHr =>
    intro s hlow hhigh
    exact ⟨_, exec_rsmStoreHr_of_valid ⟨hlow, hhigh⟩, rfl,
      storesSlot_storeSegment .attBegin s (by omega)⟩
  case storeHr4 => exact fun s => ⟨_, rfl, rfl, storesSlot_storeSegment .extract s (by decide)⟩

/-- Settles O20: the 16-bit increment is the count modulo 65536. -/
theorem invalidSegmentIsCounted : Obligations.InvalidSegmentIsCounted := by
  unfold Obligations.InvalidSegmentIsCounted
  refine ⟨fun s => decode_reasm_invalid, fun s => ?_⟩
  have hcount : BitVec.ofNat 16 ((s.invalidSegCount.toNat + 1) % 65536) = s.invalidSegCount + 1 := by
    apply BitVec.eq_of_toNat_eq
    simp
  rw [hcount]
  rfl

/-! ### The position function (41_reassembler.md R105, R107) -/

/-- Every payload position of a slot of the frame lies in the active area (R107), so the bounds test
of 20_memory.md R50 never fails. -/
theorem inBounds_positionOf {k i : Nat} {v : BitVec 1} (hk : k < Config.segCount v)
    (hi : isPayload i) : inBounds v (positionOf i k v) = true := by
  obtain ⟨hlt, hword⟩ := hi
  rw [inBounds_iff]
  obtain rfl | rfl := variant_cases v <;>
    simp [positionOf, Config.height, Config.width, Config.segCount] at hk ⊢ <;> omega

/-- The slot and the sample position that R107 gives for a place of the active area. -/
def slotAndIndexAt (v : BitVec 1) (rc : Nat × Nat) : Nat × Nat :=
  if v = 0 then (0, 82 * rc.1 + (rc.2 + 2))
  else (rc.1 / 30, 82 * (2 * (rc.1 % 30) + rc.2 / 80) + (rc.2 % 80 + 2))

/-- R107's inverse undoes `positionOf` on the payload positions of the frame. -/
theorem slotAndIndexAt_positionOf {k i : Nat} {v : BitVec 1} (hk : k < Config.segCount v)
    (hi : isPayload i) : slotAndIndexAt v (positionOf i k v) = (k, i) := by
  obtain ⟨hlt, hword⟩ := hi
  obtain rfl | rfl := variant_cases v <;>
    simp [positionOf, slotAndIndexAt, Config.segCount] at hk ⊢ <;> omega

/-- Row and column of a grid cell from its linear index (20_memory.md R44). -/
theorem gridIndex_div_mod {v : BitVec 1} {rc : Nat × Nat} (h : inBounds v rc = true) :
    (gridIndex rc / 160, gridIndex rc % 160) = rc := by
  obtain ⟨-, hcol⟩ := (inBounds_iff v rc).1 h
  have hwidth : Config.width v ≤ 160 := by
    unfold Config.width
    split <;> omega
  rw [gridIndex, Config.gridWidth, Nat.mul_add_div (by decide), Nat.mul_add_mod,
    Nat.div_eq_of_lt (by omega), Nat.mod_eq_of_lt (by omega), Nat.add_zero]

/-! ### Extraction (41_reassembler.md R106) -/

/-- The grid cell a sample of the frame goes to. -/
def FrameSample.cell (v : BitVec 1) (x : FrameSample) : Nat := gridIndex (positionOf x.index x.slot v)

/-- No two samples of a frame go to one cell (R107). -/
theorem frameSample_eq_of_cell_eq {s : State} {x y : FrameSample} (hx : x ∈ frameSamples s)
    (hy : y ∈ frameSamples s) (h : x.cell s.cfgVariant = y.cell s.cfgVariant) : x = y := by
  obtain ⟨hxk, hxi, hxv, -⟩ := (mem_frameSamples s x).1 hx
  obtain ⟨hyk, hyi, hyv, -⟩ := (mem_frameSamples s y).1 hy
  have hpos : positionOf x.index x.slot s.cfgVariant = positionOf y.index y.slot s.cfgVariant := by
    rw [← gridIndex_div_mod (inBounds_positionOf hxk hxi),
      ← gridIndex_div_mod (inBounds_positionOf hyk hyi)]
    exact congrArg (fun n => (n / 160, n % 160)) h
  have hplace : (x.slot, x.index) = (y.slot, y.index) := by
    rw [← slotAndIndexAt_positionOf hxk hxi, ← slotAndIndexAt_positionOf hyk hyi, hpos]
  obtain ⟨hslot, hindex⟩ := Prod.mk.inj hplace
  have hvalue : x.value = y.value := by rw [hxv, hyv, hslot, hindex]
  cases x
  cases y
  congr

/-- The grid after extraction as a fold of plain writes: the bounds test passes for every sample. -/
theorem foldl_extractSample (s : State) :
    (frameSamples s).foldl (extractSample s.cfgVariant) s.grid =
      (frameSamples s).foldl (fun m x => writeAt 0 m (x.cell s.cfgVariant) x.value) s.grid := by
  refine List.foldl_rel (r := Eq) rfl fun x hx m m' hm => ?_
  obtain ⟨hk, hi, -, -⟩ := (mem_frameSamples s x).1 hx
  subst hm
  exact if_pos (inBounds_positionOf hk hi)

/-- A sample is the no-data sentinel when its two bytes give 0 (20_memory.md R43). -/
theorem sampleAt_slot_eq_zero_iff (s : State) (k i : Nat) :
    sampleAt (s.slot k) i = 0 ↔ slotSample s k i = 0 := by
  rw [← BitVec.toNat_inj, sampleAt_toNat]
  rfl

/-- A non-zero payload sample of the frame's slots is one of the frame's samples. -/
theorem mem_frameSamples_of_slotSample {s : State} {k i : Nat} (hk : k < Config.segCount s.cfgVariant)
    (hi : isPayload i) (hv : slotSample s k i ≠ 0) :
    (⟨k, i, sampleAt (s.slot k) i⟩ : FrameSample) ∈ frameSamples s :=
  (mem_frameSamples s _).2 ⟨hk, hi, rfl, mt (sampleAt_slot_eq_zero_iff s k i).1 hv⟩

/-- A sample of the frame stands at a payload position of its slots, where the bytes do not give 0. -/
theorem slotSample_of_mem_frameSamples {s : State} {x : FrameSample} (hx : x ∈ frameSamples s) :
    x.slot < Config.segCount s.cfgVariant ∧ isPayload x.index ∧ slotSample s x.slot x.index ≠ 0 := by
  obtain ⟨hk, hi, hvalue, hne⟩ := (mem_frameSamples s x).1 hx
  exact ⟨hk, hi, mt (sampleAt_slot_eq_zero_iff s _ _).2 (hvalue ▸ hne)⟩

/-- Settles O22: samples go to distinct cells, so each written cell holds its own sample, and a cell
that no sample goes to is not written. -/
theorem extractPlacesEveryNonzeroSample : Obligations.ExtractPlacesEveryNonzeroSample := by
  unfold Obligations.ExtractPlacesEveryNonzeroSample
  refine ⟨selectedIn_of_decodePhase fun _ _ _ => rfl, fun s => ⟨_, rfl, rfl, ?placed, ?kept⟩⟩
  all_goals rw [goto_grid, foldl_extractSample]
  case placed =>
    intro k i hk hi hv
    have hplaced := readAt_foldl_mem 0 (FrameSample.cell s.cfgVariant) FrameSample.value
      (frameSamples s) s.grid
      (fun x hx y hy hcell => congrArg FrameSample.value (frameSample_eq_of_cell_eq hx hy hcell))
      _ (mem_frameSamples_of_slotSample hk hi hv)
    exact (congrArg BitVec.toNat hplaced).trans (sampleAt_toNat _ _)
  case kept =>
    intro n hother
    refine readAt_foldl_other 0 _ FrameSample.value _ _ n fun x hx => ?_
    obtain ⟨hk, hi, hv⟩ := slotSample_of_mem_frameSamples hx
    exact hother x.slot x.index hk hi hv

end Sys2Proof.Machine

namespace Sys2Proof.Machine

/-! ### The operations phase RANGE selects (42_range_tracker.md R115) -/

/-- The first half of phase RANGE by `CFG_AUTO` (R116, R117). -/
theorem decode_range {s : State} (hphase : s.phase = .range) :
    decode (phaseSelector s .first) = if s.cfgAuto = 0 then .ok .rngHold else .ok .rngScan := by
  rw [phaseSelector, hphase]
  rfl

/-- Settles O24: `CFG_AUTO` 0 selects the operation that does nothing. -/
theorem holdKeepsBothBounds : Obligations.HoldKeepsBothBounds := by
  unfold Obligations.HoldKeepsBothBounds
  refine ⟨fun s hphase hauto => ?_, fun s => rfl⟩
  rw [decode_range hphase, if_pos hauto]

/-! ### The scale (42_range_tracker.md R118, R119) -/

/-- RNG.SCALE on a degenerate range. -/
theorem exec_rngScale_of_degenerate {s : State}
    (h : (s.rangeMax.toNat : Int) - s.rangeMin.toNat < 1) :
    exec .rngScale s = .next (goto .map { raiseCause .degenerateRange s with
      rangeDegenerate := true, diff := 1 }) := by
  have hdegenerate : degenerate s.rangeMin s.rangeMax = true := decide_eq_true h
  show execRngScale s = _
  rw [execRngScale, hdegenerate]
  simp [clampedDiff, hdegenerate]

/-- RNG.SCALE on a range of at least 1: the difference fits its register. -/
theorem exec_rngScale_of_one_le {s : State} (h : 1 ≤ (s.rangeMax.toNat : Int) - s.rangeMin.toNat) :
    exec .rngScale s = .next (goto .map { s with
      rangeDegenerate := false, diff := BitVec.ofNat 16 (s.rangeMax.toNat - s.rangeMin.toNat) }) := by
  have hproper : degenerate s.rangeMin s.rangeMax = false := decide_eq_false (Int.not_lt.2 h)
  have hwidth : (rangeWidth s.rangeMin s.rangeMax).toNat = s.rangeMax.toNat - s.rangeMin.toNat :=
    Int.toNat_sub _ _
  show execRngScale s = _
  rw [execRngScale, hproper]
  simp [clampedDiff, hproper, hwidth]

/-- Settles O26: the two cases are the two branches of the degenerate-range test. -/
theorem scaleClampsDegenerateRange : Obligations.ScaleClampsDegenerateRange := by
  unfold Obligations.ScaleClampsDegenerateRange
  refine ⟨fun s hphase => ?_, fun s => ⟨exec_rngScale_of_degenerate, exec_rngScale_of_one_le⟩⟩
  rw [phaseSelector, hphase]
  rfl

/-! ### The scan (42_range_tracker.md R117) -/

/-- The values of the frame's non-zero samples, in the order the scan meets them. -/
def frameValues (s : State) : List Nat := (frameSamples s).map fun x => x.value.toNat

/-- The scan meets exactly the frame's values: every non-zero payload sample, and nothing else. -/
theorem mem_frameValues (s : State) (v : Nat) : v ∈ frameValues s ↔ FrameHas s v := by
  rw [frameValues, List.mem_map]
  constructor
  · rintro ⟨x, hx, rfl⟩
    obtain ⟨hk, hi, hne⟩ := slotSample_of_mem_frameSamples hx
    obtain ⟨-, -, hvalue, -⟩ := (mem_frameSamples s x).1 hx
    have hread : slotSample s x.slot x.index = x.value.toNat := by rw [hvalue, sampleAt_toNat]; rfl
    exact ⟨hread ▸ hne, x.slot, x.index, hk, hi, hread⟩
  · rintro ⟨hne, k, i, hk, hi, rfl⟩
    exact ⟨_, mem_frameSamples_of_slotSample hk hi hne, sampleAt_toNat _ _⟩

/-- A value of the frame is a 16-bit sample. -/
theorem frameHas_lt {s : State} {v : Nat} (hv : FrameHas s v) : v < 65536 := by
  obtain ⟨x, -, rfl⟩ := List.mem_map.1 ((mem_frameValues s v).2 hv)
  exact x.value.isLt

/-- The running maximum is the largest of its start and the values. -/
theorem max?_frameValues (s : State) :
    (0 :: frameValues s).max? = some (runningMax (frameSamples s)).toNat := by
  rw [List.max?_cons', frameValues, List.foldl_map, runningMax]
  refine congrArg some (List.foldl_hom BitVec.toNat (init := 0#16) fun m x => ?_)
  split
  case isTrue h => exact Nat.max_eq_right (Nat.le_of_lt h)
  case isFalse h => exact Nat.max_eq_left (Nat.le_of_not_lt h)

/-- The running minimum is the smallest of its start and the values. -/
theorem min?_frameValues (s : State) :
    (65535 :: frameValues s).min? = some (runningMin (frameSamples s)).toNat := by
  rw [List.min?_cons', frameValues, List.foldl_map, runningMin]
  refine congrArg some (List.foldl_hom BitVec.toNat (init := 65535#16) fun m x => ?_)
  split
  case isTrue h => exact Nat.min_eq_right (Nat.le_of_lt h)
  case isFalse h => exact Nat.min_eq_left (Nat.le_of_not_lt h)

/-- A running value `m` that moved is one of the frame's. One still at its start is too if the frame
has a value at all, because the start is the outermost 16-bit value and `m` bounds the frame. -/
theorem frameHas_or_start {s : State} {m start : BitVec 16}
    (hmem : m.toNat ∈ start.toNat :: frameValues s)
    (hbound : ∀ v, FrameHas s v → m = start → v = m.toNat) :
    FrameHas s m.toNat ∨ ((∀ v, ¬ FrameHas s v) ∧ m = start) := by
  obtain hstart | hvalue := List.mem_cons.1 hmem
  · have heq : m = start := BitVec.eq_of_toNat_eq hstart
    by_cases hhas : FrameHas s m.toNat
    · exact .inl hhas
    · exact .inr ⟨fun v hv => hhas (hbound v hv heq ▸ hv), heq⟩
  · exact .inl ((mem_frameValues s _).1 hvalue)

/-- R117 for the maximum. -/
theorem runningMax_extreme (s : State) :
    (∀ v, FrameHas s v → v ≤ (runningMax (frameSamples s)).toNat) ∧
    (FrameHas s (runningMax (frameSamples s)).toNat ∨
      ((∀ v, ¬ FrameHas s v) ∧ runningMax (frameSamples s) = 0)) := by
  obtain ⟨hmem, hle⟩ := List.max?_eq_some_iff.1 (max?_frameValues s)
  have hupper (v : Nat) (hv : FrameHas s v) : v ≤ (runningMax (frameSamples s)).toNat :=
    hle v (List.mem_cons_of_mem _ ((mem_frameValues s v).2 hv))
  refine ⟨hupper, frameHas_or_start hmem fun v hv hzero => ?_⟩
  exact Nat.le_antisymm (hupper v hv) (hzero ▸ Nat.zero_le v)

/-- R117 for the minimum. -/
theorem runningMin_extreme (s : State) :
    (∀ v, FrameHas s v → (runningMin (frameSamples s)).toNat ≤ v) ∧
    (FrameHas s (runningMin (frameSamples s)).toNat ∨
      ((∀ v, ¬ FrameHas s v) ∧ runningMin (frameSamples s) = 65535)) := by
  obtain ⟨hmem, hle⟩ := List.min?_eq_some_iff.1 (min?_frameValues s)
  have hlower (v : Nat) (hv : FrameHas s v) : (runningMin (frameSamples s)).toNat ≤ v :=
    hle v (List.mem_cons_of_mem _ ((mem_frameValues s v).2 hv))
  refine ⟨hlower, frameHas_or_start hmem fun v hv hfull => ?_⟩
  exact Nat.le_antisymm (hfull ▸ Nat.le_of_lt_succ (frameHas_lt hv)) (hlower v hv)

/-- Settles O25: an automatic bound is the running extreme, a pinned one is not written. -/
theorem scanFindsFrameExtremes : Obligations.ScanFindsFrameExtremes := by
  unfold Obligations.ScanFindsFrameExtremes
  refine ⟨fun s hphase hauto => ?select, fun s => ⟨_, rfl, rfl, ?pinnedMax, ?pinnedMin, ?max, ?min⟩⟩
  case select => rw [decode_range hphase, if_neg hauto]
  case pinnedMax => exact fun hpinned => if_neg (ne_true_of_eq_false hpinned)
  case pinnedMin => exact fun hpinned => if_neg (ne_true_of_eq_false hpinned)
  case max =>
    intro hauto
    simpa [autoMax, hauto] using runningMax_extreme s
  case min =>
    intro hauto
    simpa [autoMin, hauto] using runningMin_extreme s

end Sys2Proof.Machine

namespace Sys2Proof.Machine

/-! ### The pixel of a sample (43_palette_mapper.md R126, R127) -/

/-- The floor of the exact rational is the one integer between its two bounds (R127). -/
theorem scaledValue_eq_of_floor {lo d v : BitVec 16} {sv : Int} (hd : d ≠ 0)
    (hle : sv * d.toNat ≤ ((v.toNat : Int) - lo.toNat) * 255)
    (hlt : ((v.toNat : Int) - lo.toNat) * 255 < (sv + 1) * d.toNat) : scaledValue lo d v = sv := by
  have hpos : (0 : Int) < d.toNat :=
    Int.natCast_pos.2 (Nat.pos_of_ne_zero (mt (BitVec.eq_of_toNat_eq (y := 0)) hd))
  rw [Int.add_mul, Int.one_mul] at hlt
  exact (Int.ediv_eq_iff_of_pos hpos).2 ⟨hle, hlt⟩

/-! ### The preview pixel a sample goes to (20_memory.md R45) -/

/-- Row and column of a preview pixel from its linear index. -/
theorem previewIndex_div_mod {v : BitVec 1} {rc : Nat × Nat} (h : inBounds v rc = true) :
    (previewIndex v rc / Config.width v, previewIndex v rc % Config.width v) = rc := by
  obtain ⟨-, hcol⟩ := (inBounds_iff v rc).1 h
  rw [previewIndex, Nat.mul_add_div (Nat.zero_lt_of_lt hcol), Nat.mul_add_mod,
    Nat.div_eq_of_lt hcol, Nat.mod_eq_of_lt hcol, Nat.add_zero]

/-- The preview index a sample of the frame goes to. -/
def FrameSample.pixelIndex (v : BitVec 1) (x : FrameSample) : Nat :=
  previewIndex v (positionOf x.index x.slot v)

/-- No two samples of a frame go to one pixel: they would stand at one position, hence in one grid
cell (R129). -/
theorem frameSample_eq_of_pixelIndex_eq {s : State} {x y : FrameSample} (hx : x ∈ frameSamples s)
    (hy : y ∈ frameSamples s) (h : x.pixelIndex s.cfgVariant = y.pixelIndex s.cfgVariant) :
    x = y := by
  obtain ⟨hxk, hxi, -, -⟩ := (mem_frameSamples s x).1 hx
  obtain ⟨hyk, hyi, -, -⟩ := (mem_frameSamples s y).1 hy
  have hpos : positionOf x.index x.slot s.cfgVariant = positionOf y.index y.slot s.cfgVariant := by
    rw [← previewIndex_div_mod (inBounds_positionOf hxk hxi),
      ← previewIndex_div_mod (inBounds_positionOf hyk hyi)]
    exact congrArg (fun n => (n / Config.width s.cfgVariant, n % Config.width s.cfgVariant)) h
  exact frameSample_eq_of_cell_eq hx hy (congrArg gridIndex hpos)

/-! ### PAL.MAP (43_palette_mapper.md R126) -/

/-- The pixel PAL.MAP computes for a sample of the frame. -/
def FrameSample.pixel (p : Palette) (s : State) (x : FrameSample) : Pixel :=
  pixelOf p s.rangeMin s.diff x.value

/-- PAL.MAP with a palette selected and a usable `diff`. -/
theorem exec_palMap_of_palette {s : State} {p : Palette}
    (hp : selectPalette s.params s.cfgPalette = some p) (hd : s.diff ≠ 0) :
    exec .palMap s = .next (goto .pubRaw { s with
      preview := (frameSamples s).foldl (mapSample p s) s.preview }) := by
  show execPalMap s = _
  rw [execPalMap, hp]
  exact if_neg hd

/-- The preview after mapping as a fold of plain writes: the bounds test passes for every sample. -/
theorem foldl_mapSample (p : Palette) (s : State) :
    (frameSamples s).foldl (mapSample p s) s.preview =
      (frameSamples s).foldl
        (fun m x => writeAt Pixel.black m (x.pixelIndex s.cfgVariant) (x.pixel p s)) s.preview := by
  refine List.foldl_rel (r := Eq) rfl fun x hx m m' hm => ?_
  obtain ⟨hk, hi, -, -⟩ := (mem_frameSamples s x).1 hx
  subst hm
  exact if_pos (inBounds_positionOf hk hi)

/-- Settles O27: samples go to distinct pixels, so each painted pixel holds its own sample's triple,
and a pixel that no sample goes to is not written. -/
theorem mapPaintsEveryNonzeroSample : Obligations.MapPaintsEveryNonzeroSample := by
  unfold Obligations.MapPaintsEveryNonzeroSample
  refine ⟨selectedIn_of_decodePhase fun _ _ _ => rfl, fun _ => ⟨rfl, rfl, rfl⟩, fun s P hP hd =>
    ⟨_, exec_palMap_of_palette hP hd, rfl, ?painted, ?kept⟩⟩
  all_goals rw [goto_preview, foldl_mapSample]
  case painted =>
    intro k i sv hk hi hv hle hlt
    have hpainted := readAt_foldl_mem Pixel.black (FrameSample.pixelIndex s.cfgVariant)
      (FrameSample.pixel P s) (frameSamples s) s.preview
      (fun x hx y hy hindex =>
        congrArg (FrameSample.pixel P s) (frameSample_eq_of_pixelIndex_eq hx hy hindex))
      _ (mem_frameSamples_of_slotSample hk hi hv)
    have hvalue : (sampleAt (s.slot k) i).toNat = slotSample s k i := sampleAt_toNat _ _
    rw [← hvalue] at hle hlt
    rw [← scaledValue_eq_of_floor hd hle hlt]
    exact hpainted
  case kept =>
    intro n hother
    refine readAt_foldl_other Pixel.black _ (FrameSample.pixel P s) _ _ n fun x hx => ?_
    obtain ⟨hk, hi, hv⟩ := slotSample_of_mem_frameSamples hx
    exact hother x.slot x.index hk hi hv

end Sys2Proof.Machine

namespace Sys2Proof.Machine

/-! ### The command token (30_encoding.md R64, R73) -/

/-- The three bytes of the command token, `"FFC"`. -/
def tokenBytes : List Byte := [0x46, 0x46, 0x43]

theorem decode_window_eq_ok_iff (a b c : Byte) (i : Instr) :
    decode (.window (windowOf a b c)) = .ok i ↔ i = .cmdPoll ∧ windowOf a b c = cmdToken := by
  by_cases h : windowOf a b c = cmdToken <;> simp [decode, h, eq_comm]

/-- A window is the token when its three bytes are. -/
theorem windowOf_eq_cmdToken_iff (a b c : Byte) :
    windowOf a b c = cmdToken ↔ a = 0x46 ∧ b = 0x46 ∧ c = 0x43 := by
  have ha := a.isLt
  have hb := b.isLt
  have hc := c.isLt
  simp only [windowOf, cmdToken, ← BitVec.toNat_inj, BitVec.ofNat_eq_ofNat, BitVec.toNat_ofNat]
  omega

/-- The window at the front of a list is the token when the token bytes are a prefix. -/
theorem windowOf_eq_cmdToken_iff_prefix (a b c : Byte) (t : List Byte) :
    windowOf a b c = cmdToken ↔ tokenBytes <+: a :: b :: c :: t := by
  rw [windowOf_eq_cmdToken_iff]
  simp [tokenBytes, List.cons_prefix_cons, eq_comm]

/-- The scan finds the token exactly when its bytes stand next to each other somewhere. -/
theorem tokenIn_iff_infix (l : List Byte) : tokenIn l = true ↔ tokenBytes <:+: l := by
  fun_induction tokenIn l with
  | case1 a b c t i hok =>
    have hwindow : windowOf a b c = cmdToken := ((decode_window_eq_ok_iff a b c i).1 hok).2
    exact iff_of_true rfl ((windowOf_eq_cmdToken_iff_prefix a b c t).1 hwindow).isInfix
  | case2 a b c t e herror ih =>
    have hnot : ¬ tokenBytes <+: a :: b :: c :: t := by
      rw [← windowOf_eq_cmdToken_iff_prefix]
      intro hwindow
      rw [(decode_window_eq_ok_iff a b c _).2 ⟨rfl, hwindow⟩] at herror
      cases herror
    rw [ih, List.infix_cons_iff (a := a), or_iff_right hnot]
  | case3 l hshort =>
    refine iff_of_false Bool.false_ne_true fun hinfix => ?_
    match l, hshort, hinfix.length_le with
    | a :: b :: c :: t, hshort, _ => exact hshort a b c t rfl

/-- The token bytes are found as three neighbours. -/
theorem tokenBytes_infix_iff (l : List Byte) :
    tokenBytes <:+: l ↔ ∃ j, j + 2 < l.length ∧
      l[j]? = some 0x46 ∧ l[j + 1]? = some 0x46 ∧ l[j + 2]? = some 0x43 := by
  rw [List.infix_iff_getElem?]
  refine exists_congr fun j => and_congr ?length ?bytes
  case length =>
    rw [show tokenBytes.length = 3 from rfl]
    omega
  case bytes =>
    simp only [Nat.add_comm _ j]
    refine ⟨fun h => ⟨h 0 (by decide), h 1 (by decide), h 2 (by decide)⟩, ?_⟩
    rintro ⟨h0, h1, h2⟩ i hi
    match i, hi with
    | 0, _ => exact h0
    | 1, _ => exact h1
    | 2, _ => exact h2

/-- R64: the match is a search for the three bytes inside the examined part of the payload. -/
theorem hasToken_iff (maxLen : Nat) (payload : List Byte) :
    hasToken maxLen payload = true ↔
      ∃ j, j + 2 < min payload.length maxLen ∧ payload[j]? = some 0x46 ∧
        payload[j + 1]? = some 0x46 ∧ payload[j + 2]? = some 0x43 := by
  rw [hasToken, tokenIn_iff_infix, tokenBytes_infix_iff, List.length_take, Nat.min_comm]
  refine exists_congr fun j => and_congr_right fun hj => ?_
  have hexamined : j + 2 < maxLen := Nat.lt_of_lt_of_le hj (Nat.min_le_right _ _)
  rw [List.getElem?_take_of_lt (by omega), List.getElem?_take_of_lt (by omega),
    List.getElem?_take_of_lt hexamined]

/-! ### The poll (44_publisher.md R135, R138) -/

/-- A poll without a datagram emits nothing. -/
theorem polledEvents_of_none {s : State} (h : pollAnswer s = none) : polledEvents s = [] := by
  rw [polledEvents, h]

/-- A poll with a datagram emits one calibration if the datagram holds the token. -/
theorem polledEvents_of_some {s : State} {payload : List Byte} (h : pollAnswer s = some payload) :
    polledEvents s = if hasToken s.params.cmdMaxLen payload then [.sensorCalibrate] else [] := by
  rw [polledEvents, h]

/-- Settles O31: the poll's events, with the token test read as the search for its bytes. -/
theorem cmdPollDispatchesAtMostOnce : Obligations.CmdPollDispatchesAtMostOnce := by
  unfold Obligations.CmdPollDispatchesAtMostOnce
  refine fun s => ⟨pollCommand s, rfl, ?frame, fun hnone => ?none, fun payload hsome => ?datagram⟩
  case frame =>
    rw [pollCommand_eq]
    rfl
  case none => rw [pollCommand_trace, polledEvents_of_none hnone, List.append_nil]
  case datagram =>
    rw [pollCommand_trace, polledEvents_of_some hsome, ← hasToken_iff]
    by_cases htoken : hasToken s.params.cmdMaxLen payload = true
    · exact .inl ⟨htoken, by rw [if_pos htoken]⟩
    · exact .inr ⟨htoken, by rw [if_neg htoken, List.append_nil]⟩

/-- Settles O34: the phase is the only thing set beside the poll. -/
theorem pubPollPollsAndBeginsAnew : Obligations.PubPollPollsAndBeginsAnew := by
  unfold Obligations.PubPollPollsAndBeginsAnew
  refine ⟨selectedIn_of_decodePhase fun _ _ _ => rfl, fun s => ?_⟩
  show execPubPoll s = _
  rw [execPubPoll, pollCommand_eq]
  rfl

/-! ### The raw datagram (30_encoding.md R66, 44_publisher.md R136) -/

/-- In a concatenation of blocks of `k` elements, block `n` stands at the indices `k * n` to
`k * n + k - 1`. -/
theorem getElem?_flatMap_of_length_eq {α β : Type} {f : α → List β} {k : Nat}
    (hf : ∀ x, (f x).length = k) (l : List α) (n : Nat) {b : Nat} (hb : b < k) :
    (l.flatMap f)[k * n + b]? = l[n]?.bind fun x => (f x)[b]? := by
  induction l generalizing n with
  | nil => simp
  | cons x xs ih =>
    rw [List.flatMap_cons]
    cases n with
    | zero => simp [List.getElem?_append_left, hf, hb]
    | succ n =>
      have hpast : (f x).length ≤ k * (n + 1) + b := by rw [hf, Nat.mul_succ]; omega
      have hindex : k * (n + 1) + b - k = k * n + b := by rw [Nat.mul_succ]; omega
      rw [List.getElem?_append_right hpast, hf, hindex, ih, List.getElem?_cons_succ]

@[simp] theorem length_cellBytes (bigEndian : Bool) (c : Sample) :
    (cellBytes bigEndian c).length = 2 := by
  cases bigEndian <;> rfl

theorem length_rawPayload (bigEndian : Bool) (grid : Mem Sample) :
    (rawPayload bigEndian grid).length = 38400 := by
  simp only [rawPayload, List.length_flatMap, length_cellBytes, List.map_const', List.length_range,
    List.sum_replicate_nat, Config.gridCells]

/-- Cell `n` of the grid occupies bytes `2n` and `2n + 1` of the datagram. -/
theorem rawPayload_getElem? (bigEndian : Bool) (grid : Mem Sample) {n b : Nat} (hn : n < 19200)
    (hb : b < 2) :
    (rawPayload bigEndian grid)[2 * n + b]? = (cellBytes bigEndian (readAt 0 grid n))[b]? := by
  rw [rawPayload, getElem?_flatMap_of_length_eq (fun _ => length_cellBytes _ _) _ _ hb,
    List.getElem?_range hn]
  rfl

/-- Settles O32: the payload is the concatenation of the cells' two bytes in row-major order. -/
theorem rawDatagramHoldsWholeGrid : Obligations.RawDatagramHoldsWholeGrid := by
  unfold Obligations.RawDatagramHoldsWholeGrid
  refine ⟨selectedIn_of_decodePhase fun _ _ _ => rfl, fun s =>
    ⟨_, rfl, length_rawPayload _ _, fun r c hr hc => ?_⟩⟩
  have hn : 160 * r + c < 19200 := by omega
  have hbyte0 := rawPayload_getElem? s.params.outBigEndian s.grid hn (b := 0) (by decide)
  have hbyte1 := rawPayload_getElem? s.params.outBigEndian s.grid hn (b := 1) (by decide)
  refine ⟨fun horder => ⟨hbyte0.trans ?_, hbyte1.trans ?_⟩,
    fun horder => ⟨hbyte0.trans ?_, hbyte1.trans ?_⟩⟩
  all_goals
    rw [horder]
    rfl

/-! ### The preview frame (30_encoding.md R67, 44_publisher.md R137) -/

theorem length_previewPixels (v : BitVec 1) (m : Mem Pixel) :
    (previewPixels v m).length = if v = 0 then 4800 else 19200 := by
  obtain rfl | rfl := variant_cases v <;> simp [previewPixels, Config.width, Config.height]

theorem previewPixels_getElem? {v : BitVec 1} (m : Mem Pixel) {n : Nat}
    (hn : n < Config.width v * Config.height v) :
    (previewPixels v m)[n]? = some (readAt Pixel.black m n) := by
  rw [previewPixels, List.getElem?_map, List.getElem?_range hn]
  rfl

/-- Settles O33: the pixels are the preview read at every index below WIDTH times HEIGHT, in order. -/
theorem previewFrameIsRowMajorCopy : Obligations.PreviewFrameIsRowMajorCopy := by
  unfold Obligations.PreviewFrameIsRowMajorCopy
  refine ⟨selectedIn_of_decodePhase fun _ _ _ => rfl, fun s =>
    ⟨_, rfl, length_previewPixels _ _, fun r c hr hc => previewPixels_getElem? _ ?_⟩⟩
  exact previewIndex_lt s.cfgVariant (r, c) ((inBounds_iff _ _).2 ⟨hr, hc⟩)

end Sys2Proof.Machine

namespace Sys2Proof.Machine

/-! ### Host moves by phase (45_host_control.md R146, R147) -/

/-- R146: outside IDLE the configuration is locked. -/
theorem exec_cfgWr_outside_idle {num : BitVec 4} {value : BitVec 32} {s : State}
    (hphase : s.phase ≠ .idle) : exec (.cfgWr num value) s = .next s := if_pos hphase

/-- R146: in IDLE CFG.WR is the register write. -/
theorem exec_cfgWr_in_idle {num : BitVec 4} {value : BitVec 32} {s : State}
    (hphase : s.phase = .idle) : exec (.cfgWr num value) s = .next (writeReg num value s) :=
  if_neg fun hne => hne hphase

/-- R147: outside IDLE START is ignored. -/
theorem exec_start_outside_idle {netOk : Bool} {s : State} (hphase : s.phase ≠ .idle) :
    exec (.start netOk) s = .next s := if_pos hphase

/-! ### Configuration writes (10_state.md R21, 45_host_control.md R146) -/

/-- The low two bits of a value are the reserved palette code exactly if it is 3 modulo 4. -/
theorem setWidth_two_eq_three_iff (value : BitVec 32) :
    value.setWidth 2 = 3#2 ↔ value.toNat % 4 = 3 := by
  rw [← BitVec.toNat_inj, BitVec.toNat_setWidth]
  rfl

/-- Register 1 takes every palette code but the reserved one. -/
theorem writeReg_palette (value : BitVec 32) (s : State) :
    writeReg 1 value s = { s with
      cfgPalette := if value.toNat % 4 ≠ 3 then value.setWidth 2 else s.cfgPalette } := by
  show (if value.setWidth 2 ≠ 3#2 then _ else s) = _
  simp only [Ne, setWidth_two_eq_three_iff]
  split <;> rfl

/-- What a register write leaves, field by field. -/
theorem writeReg_eq (num : BitVec 4) (value : BitVec 32) (s : State) :
    writeReg num value s = { s with
      cfgVariant := if num = 0 then value.setWidth 1 else s.cfgVariant
      cfgPalette := if num = 1 ∧ value.toNat % 4 ≠ 3 then value.setWidth 2 else s.cfgPalette
      cfgAuto := if num = 2 then value.setWidth 2 else s.cfgAuto
      cfgMin := if num = 3 then value.setWidth 16 else s.cfgMin
      cfgMax := if num = 4 then value.setWidth 16 else s.cfgMax
      cfgBusClock := if num = 5 then value else s.cfgBusClock
      cfgLogLevel := if num = 6 then value.setWidth 8 else s.cfgLogLevel } := by
  obtain ⟨n, hn⟩ := num
  match n, hn with
  | 1, _ => exact (writeReg_palette value s).trans (by simp)
  | 0, _ | 2, _ | 3, _ | 4, _ | 5, _ | 6, _ => rfl
  | 7, _ | 8, _ | 9, _ | 10, _ | 11, _ | 12, _ | 13, _ | 14, _ | 15, _ => rfl
  | n + 16, _ => omega

/-- Settles O1: in IDLE by what the register write leaves, elsewhere by the lock. -/
theorem cfgWrWritesOneRegisterInIdle : Obligations.CfgWrWritesOneRegisterInIdle := by
  unfold Obligations.CfgWrWritesOneRegisterInIdle
  refine fun num value s => ⟨fun hphase => ?_, exec_cfgWr_outside_idle⟩
  rw [exec_cfgWr_in_idle hphase, writeReg_eq]
  simp only [BitVec.ofNat_toNat]

/-! ### Register reads (10_state.md R12, R20, R21, 45_host_control.md R148) -/

/-- A flag weighted with its place value. -/
theorem mul_toNat_eq_ite (n : Nat) (b : Bool) : n * b.toNat = if b then n else 0 := by
  cases b <;> simp

/-- R20: STATUS has one bit each for running, halted, `netDegraded`, `rangeDegenerate` and `busOpen`. -/
theorem statusByte_toNat (s : State) : (statusByte s).toNat =
    (if s.phase ≠ .idle ∧ s.phase ≠ .halt then 1 else 0) + (if s.phase = .halt then 2 else 0) +
      (if s.netDegraded then 4 else 0) + (if s.rangeDegenerate then 8 else 0) +
      (if s.busOpen then 16 else 0) := by
  have hrunning : s.phase.running.toNat = if s.phase ≠ .idle ∧ s.phase ≠ .halt then 1 else 0 := by
    simpa [Phase.running] using mul_toNat_eq_ite 1 s.phase.running
  rw [statusByte, BitVec.toNat_ofNat, Nat.mod_eq_of_lt]
  · simp only [hrunning, mul_toNat_eq_ite, decide_eq_true_eq]
  · have hrun := s.phase.running.toNat_le
    have hhalt := (decide (s.phase = .halt)).toNat_le
    have hnet := s.netDegraded.toNat_le
    have hrange := s.rangeDegenerate.toNat_le
    have hbus := s.busOpen.toNat_le
    omega

/-- R21: SEQ_STATE holds the phase code above the six bits of `pos`. -/
theorem seqState_toNat (s : State) :
    (seqState s).toNat = s.phase.code.toNat * 64 + s.pos.toNat := by
  have hcode := s.phase.code.isLt
  have hpos := s.pos.isLt
  rw [seqState, BitVec.toNat_ofNat]
  exact Nat.mod_eq_of_lt (by omega)

/-- Settles O2: each number's register by zero extension, STATUS and SEQ_STATE by their composition. -/
theorem cfgRdReturnsNumberedRegister : Obligations.CfgRdReturnsNumberedRegister := by
  unfold Obligations.CfgRdReturnsNumberedRegister
  refine fun num s => ⟨readReg num s, rfl, ?_⟩
  have zext {w : Nat} (x : BitVec w) (hw : w ≤ 32) : (x.setWidth 32).toNat = x.toNat :=
    BitVec.toNat_setWidth_of_le hw
  obtain ⟨n, hn⟩ := num
  match n, hn with
  | 0, _ | 1, _ | 2, _ | 3, _ | 4, _ | 6, _ | 9, _ | 10, _ | 11, _ | 12, _ => exact zext _ (by decide)
  | 5, _ | 7, _ | 14, _ | 15, _ => rfl
  | 8, _ => exact (zext _ (by decide)).trans (statusByte_toNat s)
  | 13, _ =>
    refine (zext _ (by decide)).trans ((seqState_toNat s).trans ?_)
    cases s.phase <;> rfl
  | n + 16, _ => omega

/-! ### START (45_host_control.md R147) -/

/-- Settles O3: the set-up answer decides only whether the cause is recorded. -/
theorem startLoadsBoundsAndOpensBus : Obligations.StartLoadsBoundsAndOpensBus := by
  unfold Obligations.StartLoadsBoundsAndOpensBus
  refine fun netOk s => ⟨fun hphase => ?_, exec_start_outside_idle⟩
  show execStart netOk s = _
  rw [execStart, if_neg fun hne => hne hphase]
  cases netOk <;> rfl

end Sys2Proof.Machine

namespace Sys2Proof.Machine

/-! ### The configuration registers as one value (10_state.md R21) -/

/-- The values of the seven configuration registers. -/
structure Configuration where
  variant : BitVec 1
  palette : BitVec 2
  auto : BitVec 2
  min : BitVec 16
  max : BitVec 16
  busClock : BitVec 32
  logLevel : BitVec 8

/-- What the configuration registers of a state hold. -/
def State.configuration (s : State) : Configuration where
  variant := s.cfgVariant
  palette := s.cfgPalette
  auto := s.cfgAuto
  min := s.cfgMin
  max := s.cfgMax
  busClock := s.cfgBusClock
  logLevel := s.cfgLogLevel

theorem configuration_eq_iff {s t : State} : t.configuration = s.configuration ↔
    t.cfgVariant = s.cfgVariant ∧ t.cfgPalette = s.cfgPalette ∧ t.cfgAuto = s.cfgAuto ∧
    t.cfgMin = s.cfgMin ∧ t.cfgMax = s.cfgMax ∧ t.cfgBusClock = s.cfgBusClock ∧
    t.cfgLogLevel = s.cfgLogLevel := by
  simp only [State.configuration, Configuration.mk.injEq]

@[simp] theorem goto_configuration (p : Phase) (s : State) :
    (goto p s).configuration = s.configuration := rfl
@[simp] theorem pollCommand_configuration (s : State) :
    (pollCommand s).configuration = s.configuration := by
  rw [pollCommand_eq]
  rfl

@[simp] theorem takeHost_configuration (s : State) :
    (takeHost s).configuration = s.configuration := rfl

/-! ### Which operations write the configuration (10_state.md R21, 30_encoding.md R70) -/

/-- CFG.WR and RESET, the only operations that write a configuration register. -/
def writesConfiguration : Instr → Bool
  | .cfgWr _ _ | .reset => true
  | _ => false

/-- A phase selects neither of them: both are the host's (R70). -/
theorem decodePhase_not_writesConfiguration {code : BitVec 4} {variant : BitVec 1}
    {segId : BitVec 4} {auto : BitVec 2} {i : Instr}
    (h : decodePhase code variant segId auto = .ok i) : writesConfiguration i = false := by
  unfold decodePhase at h
  repeat' split at h
  all_goals cases h <;> rfl

/-- Nor does either half of a core step. -/
theorem decode_phaseSelector_not_writesConfiguration {s : State} {half : Half} {i : Instr}
    (h : decode (phaseSelector s half) = .ok i) : writesConfiguration i = false := by
  cases half with
  | first => exact decodePhase_not_writesConfiguration h
  | second =>
    simp only [phaseSelector, decode] at h
    split at h <;> cases h
    rfl

/-! ### Operations that keep the configuration -/

@[simp] theorem packetStored_configuration (s : State) (p : Packet) (rest : List BusAnswer) :
    (packetStored s p rest).configuration = s.configuration := rfl

/-- An accepted packet moves `pos` and may poll (40_synchronizer.md R83). -/
@[simp] theorem packetAccepted_configuration (s : State) :
    (packetAccepted s).configuration = s.configuration := by
  rw [packetAccepted, goto_configuration]
  split
  · exact pollCommand_configuration _
  · rfl

theorem exec_pktAccept_keeps_configuration {s t : State} (h : exec .pktAccept s = .next t) :
    t.configuration = s.configuration := by
  by_cases hpos : s.pos.toNat < 60
  · cases (execPktAccept_eq s hpos).symm.trans h
    exact packetAccepted_configuration s
  · have hfault : exec .pktAccept s = .fault .posOutOfRange := if_pos (Nat.le_of_not_lt hpos)
    cases hfault.symm.trans h

theorem exec_pktDesync_keeps_configuration {s t : State} (h : exec .pktDesync s = .next t) :
    t.configuration = s.configuration := by
  have hdesync : execPktDesync s = .next t := h
  unfold execPktDesync at hdesync
  split at hdesync <;> cases hdesync
  rfl

/-- Whatever a packet read selects, it writes no configuration register (R82, R83 to R87). -/
theorem exec_pktRd_keeps_configuration {s t : State} (h : exec .pktRd s = .next t) :
    t.configuration = s.configuration := by
  obtain ⟨-, rfl⟩ | ⟨rest, -, rfl⟩ | ⟨p, rest, -, -, hop⟩ := execPktRd_next h
  · rfl
  · rfl
  · rw [← packetStored_configuration s p rest]
    generalize packetStored s p rest = u at hop
    obtain ⟨-, -, rfl⟩ | ⟨-, -, -, -, rfl⟩ | ⟨-, -, -, -, rfl⟩ | ⟨-, -, rfl⟩ := hop
    · rfl
    · rfl
    · rfl
    · exact packetAccepted_configuration u

theorem exec_synBackoff_keeps_configuration {s t : State} (h : exec .synBackoff s = .next t) :
    t.configuration = s.configuration := by
  have hbackoff : execSynBackoff s = .next t := h
  unfold execSynBackoff at hbackoff
  dsimp only at hbackoff
  split at hbackoff <;> cases hbackoff <;> rfl

theorem exec_rsmStoreHr_keeps_configuration {s t : State} (h : exec .rsmStoreHr s = .next t) :
    t.configuration = s.configuration := by
  have hstore : execRsmStoreHr s = .next t := h
  unfold execRsmStoreHr at hstore
  split at hstore <;> cases hstore
  rfl

theorem exec_rngScale_keeps_configuration {s t : State} (h : exec .rngScale s = .next t) :
    t.configuration = s.configuration := by
  obtain hdegenerate | hproper := Int.lt_or_le ((s.rangeMax.toNat : Int) - s.rangeMin.toNat) 1
  · cases (exec_rngScale_of_degenerate hdegenerate).symm.trans h
    rfl
  · cases (exec_rngScale_of_one_le hproper).symm.trans h
    rfl

/-- START reads the configuration and writes none of it (45_host_control.md R147). -/
theorem exec_start_keeps_configuration {netOk : Bool} {s t : State}
    (h : exec (.start netOk) s = .next t) : t.configuration = s.configuration := by
  have hstart : execStart netOk s = .next t := h
  unfold execStart at hstart
  split at hstart
  · cases hstart
    rfl
  · cases netOk <;> cases hstart <;> rfl

/-- PAL.MAP writes the preview alone (43_palette_mapper.md R126). -/
theorem exec_palMap_keeps_configuration {s t : State} (h : exec .palMap s = .next t) :
    t.configuration = s.configuration := by
  have hmap : execPalMap s = .next t := h
  unfold execPalMap at hmap
  split at hmap
  · cases hmap
  · split at hmap <;> cases hmap
    rfl

/-- Every operation but CFG.WR and RESET keeps the configuration. -/
theorem exec_keeps_configuration {i : Instr} {s t : State} (hi : writesConfiguration i = false)
    (h : exec i s = .next t) : t.configuration = s.configuration := by
  cases i with
  | cfgWr _ _ | reset => cases hi
  | start _ => exact exec_start_keeps_configuration h
  | pktRd => exact exec_pktRd_keeps_configuration h
  | pktAccept => exact exec_pktAccept_keeps_configuration h
  | pktDesync => exact exec_pktDesync_keeps_configuration h
  | synBackoff => exact exec_synBackoff_keeps_configuration h
  | rsmStoreHr => exact exec_rsmStoreHr_keeps_configuration h
  | rngScale => exact exec_rngScale_keeps_configuration h
  | palMap => exact exec_palMap_keeps_configuration h
  | attBegin | pubPoll | cmdPoll =>
    cases h
    exact pollCommand_configuration _
  | cfgRd _ | pktSegok _ | pktSegbad _ | pktFatal | rbtClose | rbtReboot | rbtWarm | rbtOpen
  | rsmStoreLr | rsmStoreHr4 | rsmInvalid | rsmExtract | rngHold | rngScan | pubRaw | pubPreview =>
    cases h
    rfl

/-- The core by itself runs only operations that keep the configuration, one or two in a step. -/
theorem coreStep_keeps_configuration {s t : State} (h : coreStep s = .next t) :
    t.configuration = s.configuration := by
  unfold coreStep at h
  split at h
  · next hi hj =>
    obtain ⟨u, hu, ht⟩ := andThen_eq_next.1 h
    have hfirst := exec_keeps_configuration (decode_phaseSelector_not_writesConfiguration hi) hu
    have hsecond := exec_keeps_configuration (decode_phaseSelector_not_writesConfiguration hj) ht
    exact hsecond.trans hfirst
  · next hi _ =>
    exact exec_keeps_configuration (decode_phaseSelector_not_writesConfiguration hi) h
  · cases h
  · cases h
    rfl

/-! ### The lock and the reset values (70_reset_and_hazards.md R180, R184) -/

/-- Settles O43: outside IDLE a host move other than RESET only adds a reply, and the core's own
operations keep the configuration in any phase. -/
theorem configurationLockedOutsideIdle : Obligations.ConfigurationLockedOutsideIdle := by
  unfold Obligations.ConfigurationLockedOutsideIdle
  intro s t hstep hphase hmove
  rw [← configuration_eq_iff]
  rw [← takeHost_configuration s]
  obtain ⟨a, ha, hexec⟩ | ⟨-, hcore⟩ := step_next_cases hstep
  · have hreplies := exec_hostAction_outside_idle (s := takeHost s) hphase
      (fun hreset => hmove (hreset ▸ ha)) hexec
    rw [hreplies]
    rfl
  · exact coreStep_keeps_configuration hcore

/-- Settles O4: RESET puts the reset state in place, whose memories are empty and so read as their
defaults; what it keeps, the pending inputs, is none of the table. -/
theorem resetGivesEveryResetValue : Obligations.ResetGivesEveryResetValue := by
  unfold Obligations.ResetGivesEveryResetValue
  intro s
  have slots (k b : Nat) : readAt 0 ((State.resetWith s.params).slot k) b = 0 := by
    rw [slot_resetWith, readAt_nil]
  refine ⟨_, rfl, ?registers, ?flags, ?configuration, slots, ?cells, ?pixels, rfl⟩
  case registers => simp
  case flags => simp
  case configuration => simp
  case cells => exact readAt_nil 0
  case pixels => exact readAt_nil Pixel.black

end Sys2Proof.Machine

namespace Sys2Proof.Machine

/-! ### What an operation that completes has done -/

/-- What START leaves in IDLE (45_host_control.md R147). -/
def started (netOk : Bool) (s : State) : State :=
  { s with
    netDegraded := !netOk
    causes := if netOk then s.causes else s.causes ++ [.netSetupFailure]
    rangeMin := s.cfgMin
    rangeMax := s.cfgMax
    trace := s.trace ++ [.busOpen s.params.busId s.cfgBusClock]
    busOpen := true
    phase := .attBegin }

/-- What RESET leaves (70_reset_and_hazards.md R180). -/
def resetKeepingInputs (s : State) : State :=
  { State.resetWith s.params with busIn := s.busIn, pollIn := s.pollIn, hostIn := s.hostIn }

/-- What RNG.SCALE leaves (42_range_tracker.md R118). -/
def rangeScaled (s : State) : State :=
  goto .map { s with
    causes := if degenerate s.rangeMin s.rangeMax then s.causes ++ [.degenerateRange] else s.causes
    rangeDegenerate := degenerate s.rangeMin s.rangeMax
    diff := clampedDiff s.rangeMin s.rangeMax }

/-- `Effect i s t`: operation `i` completes on `s` and leaves `t`. One constructor for each way in
which an operation of the table can complete, with the condition it completes under. -/
inductive Effect : Instr → State → State → Prop
  | cfgWr {num value s} (hphase : s.phase = .idle) :
    Effect (.cfgWr num value) s (writeReg num value s)
  | cfgWrIgnored {num value s} (hphase : s.phase ≠ .idle) : Effect (.cfgWr num value) s s
  | cfgRd {num s} : Effect (.cfgRd num) s { s with replies := s.replies ++ [readReg num s] }
  | start {netOk s} (hphase : s.phase = .idle) : Effect (.start netOk) s (started netOk s)
  | startIgnored {netOk s} (hphase : s.phase ≠ .idle) : Effect (.start netOk) s s
  | reset {s} : Effect .reset s (resetKeepingInputs s)
  | attBegin {s} : Effect .attBegin s (goto .seek (pollCommand { s with pos := 0, resets := 0, segId := 0 }))
  | pktRdSilent {s} (hbus : s.busIn = []) : Effect .pktRd s s
  | pktRdFatal {s rest} (hbus : s.busIn = .fatal :: rest) :
    Effect .pktRd s (goto .halt (raiseCause .busFatal (logCall .busRead { s with busIn := rest })))
  | pktRdPacket {s p rest t} (hbus : s.busIn = .packet p :: rest) (hpos : s.pos.toNat < 60)
    (hop : Effect (decodePacket (some (packetHeader p)) s.pos s.cfgVariant).instr
      (packetStored s p rest) t) : Effect .pktRd s t
  | pktAccept {s} (hpos : s.pos.toNat < 60) : Effect .pktAccept s (packetAccepted s)
  | pktSegok {seg s} : Effect (.pktSegok seg) s (goto .seek { s with segId := seg, pos := 21 })
  | pktSegbad {seg s} :
    Effect (.pktSegbad seg) s (goto .reasm (raiseCause .invalidSegment { s with segId := seg }))
  | pktDesync {s} (hresets : s.resets.toNat < 1023) :
    Effect .pktDesync s (goto .backoff { raiseCause .transientDesync s with
      pos := 0, segId := 0, resets := s.resets + 1 })
  | pktFatal {s} : Effect .pktFatal s (goto .halt (raiseCause .busFatal s))
  | synBackoff {s} (hresets : s.resets.toNat ≠ 750) :
    Effect .synBackoff s (goto .seek (timerWait s.params.backoffTime s))
  | synBackoffThreshold {s} (hresets : s.resets.toNat = 750) :
    Effect .synBackoff s
      (goto .rbtClose (raiseCause .persistentDesync (timerWait s.params.backoffTime s)))
  | rbtClose {s} :
    Effect .rbtClose s (goto .rbtReboot { emit (.busClose s.params.busId) s with busOpen := false })
  | rbtReboot {s} :
    Effect .rbtReboot s (goto .rbtWarm { emit .sensorReboot s with resets := 0, invalidSegCount := 0 })
  | rbtWarm {s} : Effect .rbtWarm s (goto .rbtOpen (timerWait s.params.warmupTime s))
  | rbtOpen {s} : Effect .rbtOpen s
      (goto .seek { emit (.busOpen s.params.busId s.cfgBusClock) s with busOpen := true })
  | rsmStoreLr {s} : Effect .rsmStoreLr s (goto .extract (storeSegment 0 s))
  | rsmStoreHr {s} (hseg : 1 ≤ s.segId.toNat ∧ s.segId.toNat ≤ 4) :
    Effect .rsmStoreHr s (goto .attBegin (storeSegment (s.segId.toNat - 1) s))
  | rsmStoreHr4 {s} : Effect .rsmStoreHr4 s (goto .extract (storeSegment 3 s))
  | rsmInvalid {s} :
    Effect .rsmInvalid s (goto .attBegin { s with invalidSegCount := s.invalidSegCount + 1 })
  | rsmExtract {s} : Effect .rsmExtract s
      (goto .range { s with grid := (frameSamples s).foldl (extractSample s.cfgVariant) s.grid })
  | rngHold {s} : Effect .rngHold s s
  | rngScan {s} : Effect .rngScan s { s with
      rangeMax := if autoMax s then runningMax (frameSamples s) else s.rangeMax
      rangeMin := if autoMin s then runningMin (frameSamples s) else s.rangeMin }
  | rngScale {s} : Effect .rngScale s (rangeScaled s)
  | palMap {s p} (hpalette : selectPalette s.params s.cfgPalette = some p) (hdiff : s.diff ≠ 0) :
    Effect .palMap s (goto .pubRaw { s with preview := (frameSamples s).foldl (mapSample p s) s.preview })
  | pubRaw {s} : Effect .pubRaw s
      (goto .pubPreview (emit (.netSend (rawPayload s.params.outBigEndian s.grid)) s))
  | pubPreview {s} : Effect .pubPreview s
      (goto .pubPoll (emit (.previewFrame (Config.width s.cfgVariant) (Config.height s.cfgVariant)
        (previewPixels s.cfgVariant s.preview)) s))
  | pubPoll {s} : Effect .pubPoll s (goto .attBegin (pollCommand s))
  | cmdPoll {s} : Effect .cmdPoll s (pollCommand s)

/-! ### Every completing operation has one of these effects -/

theorem exec_start_in_idle {netOk : Bool} {s : State} (hphase : s.phase = .idle) :
    exec (.start netOk) s = .next (started netOk s) :=
  (startLoadsBoundsAndOpensBus netOk s).1 hphase

theorem exec_rngScale (s : State) : exec .rngScale s = .next (rangeScaled s) := by
  show execRngScale s = _
  unfold execRngScale rangeScaled
  cases hdegenerate : degenerate s.rangeMin s.rangeMax <;> rfl

theorem exec_synBackoff_below {s : State} (hresets : s.resets.toNat ≠ 750) :
    exec .synBackoff s = .next (goto .seek (timerWait s.params.backoffTime s)) := if_neg hresets

theorem exec_synBackoff_threshold {s : State} (hresets : s.resets.toNat = 750) :
    exec .synBackoff s =
      .next (goto .rbtClose (raiseCause .persistentDesync (timerWait s.params.backoffTime s))) :=
  if_pos hresets

theorem exec_pktAccept_of_le {s : State} (hpos : 60 ≤ s.pos.toNat) :
    exec .pktAccept s = .fault .posOutOfRange := if_pos hpos

theorem exec_pktDesync_of_le {s : State} (hresets : 1023 ≤ s.resets.toNat) :
    exec .pktDesync s = .fault .registerOverflow := if_neg (by omega)

theorem exec_rsmStoreHr_of_not_valid {s : State}
    (hseg : ¬ (1 ≤ s.segId.toNat ∧ s.segId.toNat ≤ 4)) :
    exec .rsmStoreHr s = .fault .noShelfSlot :=
  if_neg (mt (segValid_iff _).1 hseg)

theorem exec_palMap_of_no_palette {s : State} (hp : selectPalette s.params s.cfgPalette = none) :
    exec .palMap s = .fault .noPalette := by
  show execPalMap s = _
  rw [execPalMap, hp]

theorem exec_palMap_of_zero_diff {s : State} {p : Palette}
    (hp : selectPalette s.params s.cfgPalette = some p) (hd : s.diff = 0) :
    exec .palMap s = .fault .zeroDiff := by
  show execPalMap s = _
  rw [execPalMap, hp]
  exact if_pos hd

theorem exec_pktRd_of_le {s : State} {p : Packet} {rest : List BusAnswer}
    (hbus : s.busIn = .packet p :: rest) (hpos : 60 ≤ s.pos.toNat) :
    exec .pktRd s = .fault .posOutOfRange := by
  show execPktRd s = _
  rw [execPktRd, hbus]
  exact if_pos hpos

theorem exec_pktRd_silent {s : State} (hbus : s.busIn = []) : exec .pktRd s = .next s := by
  show execPktRd s = _
  rw [execPktRd, hbus]

/-- A packet operation that completes. -/
theorem effect_of_exec_packetOp {op : PacketOp} {s t : State} (h : exec op.instr s = .next t) :
    Effect op.instr s t := by
  cases op with
  | accept =>
    obtain hpos | hpos := Nat.lt_or_ge s.pos.toNat 60
    · cases (execPktAccept_eq s hpos).symm.trans h
      exact .pktAccept hpos
    · cases (exec_pktAccept_of_le hpos).symm.trans h
  | segok seg => cases h; exact .pktSegok
  | segbad seg => cases h; exact .pktSegbad
  | desync =>
    obtain hresets | hresets := Nat.lt_or_ge s.resets.toNat 1023
    · cases (exec_pktDesync_of_lt hresets).symm.trans h
      exact .pktDesync hresets
    · cases (exec_pktDesync_of_le hresets).symm.trans h
  | fatal => cases h; exact .pktFatal

/-- A packet read that completes. -/
theorem effect_of_exec_pktRd {s t : State} (h : exec .pktRd s = .next t) : Effect .pktRd s t := by
  match hbus : s.busIn with
  | [] =>
    cases (exec_pktRd_silent hbus).symm.trans h
    exact .pktRdSilent hbus
  | .fatal :: rest =>
    cases (exec_pktRd_fatal hbus).symm.trans h
    exact .pktRdFatal hbus
  | .packet p :: rest =>
    obtain hpos | hpos := Nat.lt_or_ge s.pos.toNat 60
    · exact .pktRdPacket hbus hpos (effect_of_exec_packetOp ((exec_pktRd_packet hbus hpos).symm.trans h))
    · cases (exec_pktRd_of_le hbus hpos).symm.trans h

/-- Inversion of an operation that completes. -/
theorem effect_of_exec {i : Instr} {s t : State} (h : exec i s = .next t) : Effect i s t := by
  cases i with
  | cfgWr num value =>
    by_cases hphase : s.phase = .idle
    · cases (exec_cfgWr_in_idle hphase).symm.trans h
      exact .cfgWr hphase
    · cases (exec_cfgWr_outside_idle hphase).symm.trans h
      exact .cfgWrIgnored hphase
  | start netOk =>
    by_cases hphase : s.phase = .idle
    · cases (exec_start_in_idle hphase).symm.trans h
      exact .start hphase
    · cases (exec_start_outside_idle hphase).symm.trans h
      exact .startIgnored hphase
  | pktRd => exact effect_of_exec_pktRd h
  | pktAccept => exact effect_of_exec_packetOp (op := .accept) h
  | pktDesync => exact effect_of_exec_packetOp (op := .desync) h
  | synBackoff =>
    by_cases hresets : s.resets.toNat = 750
    · cases (exec_synBackoff_threshold hresets).symm.trans h
      exact .synBackoffThreshold hresets
    · cases (exec_synBackoff_below hresets).symm.trans h
      exact .synBackoff hresets
  | rsmStoreHr =>
    by_cases hseg : 1 ≤ s.segId.toNat ∧ s.segId.toNat ≤ 4
    · cases (exec_rsmStoreHr_of_valid hseg).symm.trans h
      exact .rsmStoreHr hseg
    · cases (exec_rsmStoreHr_of_not_valid hseg).symm.trans h
  | rngScale =>
    cases (exec_rngScale s).symm.trans h
    exact .rngScale
  | palMap =>
    match hpalette : selectPalette s.params s.cfgPalette with
    | none => cases (exec_palMap_of_no_palette hpalette).symm.trans h
    | some p =>
      by_cases hdiff : s.diff = 0
      · cases (exec_palMap_of_zero_diff hpalette hdiff).symm.trans h
      · cases (exec_palMap_of_palette hpalette hdiff).symm.trans h
        exact .palMap hpalette hdiff
  | _ => cases h; constructor

end Sys2Proof.Machine

namespace Sys2Proof.Machine

/-! ### When a step runs an operation -/

/-- The packet slot `pos` names holds a packet whose sequence number is `pos` (30_encoding.md R62). -/
def HeaderInOrder (s : State) : Prop := (seqField (headerAt s.pktbuf s.pos.toNat)).toNat = s.pos.toNat

/-- What holds where a step runs the operation: the phase and the conditions of 30_encoding.md R70,
for the packet operations those of R62 on the packet just stored. A host move has none. -/
def Runs : Instr → State → Prop
  | .cfgWr _ _, _ | .cfgRd _, _ | .start _, _ | .reset, _ => True
  | .attBegin, s => s.phase = .attBegin
  | .pktRd, s | .pktDesync, s | .pktFatal, s => s.phase = .seek
  | .pktAccept, s => s.phase = .seek ∧ HeaderInOrder s ∧ ¬ (s.cfgVariant = 1 ∧ s.pos.toNat = 20)
  | .pktSegok seg, s => s.phase = .seek ∧ HeaderInOrder s ∧ s.cfgVariant = 1 ∧ s.pos.toNat = 20 ∧
      segValid seg = true ∧ segField (headerAt s.pktbuf 20) = seg
  | .pktSegbad seg, s => s.phase = .seek ∧ HeaderInOrder s ∧ s.cfgVariant = 1 ∧ s.pos.toNat = 20 ∧
      segValid seg = false ∧ segField (headerAt s.pktbuf 20) = seg
  | .synBackoff, s => s.phase = .backoff
  | .rbtClose, s => s.phase = .rbtClose
  | .rbtReboot, s => s.phase = .rbtReboot
  | .rbtWarm, s => s.phase = .rbtWarm
  | .rbtOpen, s => s.phase = .rbtOpen
  | .rsmStoreLr, s => s.phase = .reasm ∧ s.cfgVariant = 0
  | .rsmStoreHr, s => s.phase = .reasm ∧ s.cfgVariant = 1 ∧ segValid s.segId = true
  | .rsmStoreHr4, s => s.phase = .reasm ∧ s.cfgVariant = 1 ∧ s.segId = 4
  | .rsmInvalid, s => s.phase = .reasm ∧ s.cfgVariant = 1 ∧ segValid s.segId = false
  | .rsmExtract, s => s.phase = .extract
  | .rngHold, s | .rngScan, s | .rngScale, s => s.phase = .range
  | .palMap, s => s.phase = .map
  | .pubRaw, s => s.phase = .pubRaw
  | .pubPreview, s => s.phase = .pubPreview
  | .pubPoll, s => s.phase = .pubPoll
  | .cmdPoll, _ => False

theorem runs_hostAction (a : HostAction) (s : State) : Runs a.instr s := by
  cases a <;> trivial

theorem runs_of_decode_reasm {i : Instr} {s : State} (hphase : s.phase = .reasm)
    (h : decode (phaseSelector s .first) = .ok i) : Runs i s := by
  rw [decode_reasm hphase] at h
  obtain hvariant | hvariant := variant_cases s.cfgVariant
  · rw [if_pos hvariant] at h
    cases h
    exact ⟨hphase, hvariant⟩
  · rw [if_neg (by rw [hvariant]; decide)] at h
    cases hvalid : segValid s.segId
    · rw [hvalid] at h
      cases h
      exact ⟨hphase, hvariant, hvalid⟩
    · rw [hvalid, Bool.not_true, if_neg Bool.false_ne_true] at h
      split at h <;> cases h
      · next hlast => exact ⟨hphase, hvariant, hlast⟩
      · exact ⟨hphase, hvariant, hvalid⟩

/-- The operation a phase selects meets its conditions. -/
theorem runs_of_decode {i : Instr} {s : State} (h : decode (phaseSelector s .first) = .ok i) :
    Runs i s := by
  cases hphase : s.phase with
  | reasm => exact runs_of_decode_reasm hphase h
  | range =>
    rw [decode_range hphase] at h
    split at h <;> cases h <;> exact hphase
  | _ =>
    rw [phaseSelector, hphase] at h
    cases h <;> exact hphase

/-- The operation a delivered packet selects meets its conditions once the packet is stored. -/
theorem runs_packetOp {s : State} {p : Packet} {rest : List BusAnswer} (hphase : s.phase = .seek) :
    Runs (decodePacket (some (packetHeader p)) s.pos s.cfgVariant).instr (packetStored s p rest) := by
  have hstored : headerAt (packetStored s p rest).pktbuf s.pos.toNat = packetHeader p :=
    headerAt_storePacket p _
  have horder (hseq : (seqField (packetHeader p)).toNat = s.pos.toNat) :
      HeaderInOrder (packetStored s p rest) := (congrArg (fun h => (seqField h).toNat) hstored).trans hseq
  obtain ⟨-, hop⟩ | ⟨hseq, hvariant, hpos, hvalid, hop⟩ | ⟨hseq, hvariant, hpos, hvalid, hop⟩ |
    ⟨hseq, hplain, hop⟩ := decodePacket_cases (packetHeader p) s.pos s.cfgVariant
  all_goals rw [hop]
  · exact hphase
  · exact ⟨hphase, horder hseq, hvariant, hpos, hvalid, congrArg segField (hpos ▸ hstored)⟩
  · exact ⟨hphase, horder hseq, hvariant, hpos, hvalid, congrArg segField (hpos ▸ hstored)⟩
  · exact ⟨hphase, horder hseq, hplain⟩

/-! ### What a step can do -/

@[simp] theorem takeHost_phase (s : State) : (takeHost s).phase = s.phase := rfl

/-- Only phase RANGE has a second half (42_range_tracker.md R115). -/
theorem decode_second (s : State) : decode (phaseSelector s .second) =
    if s.phase = .range then .ok .rngScale else .error .noSecondHalf := by
  cases hphase : s.phase <;> rw [phaseSelector, hphase] <;> rfl

/-- A core step outside RANGE is the operation the phase selects. -/
theorem coreStep_of_ne_range {i : Instr} {s : State} (hphase : s.phase ≠ .range)
    (h : decode (phaseSelector s .first) = .ok i) : coreStep s = exec i s := by
  rw [coreStep, h, decode_second, if_neg hphase]

/-- A core step in RANGE is the selected operation and the scale (42_range_tracker.md R115). -/
theorem coreStep_of_range {i : Instr} {s : State} (hphase : s.phase = .range)
    (h : decode (phaseSelector s .first) = .ok i) :
    coreStep s = andThen (exec i s) (exec .rngScale) := by
  rw [coreStep, h, decode_second, if_pos hphase]

/-- Outside IDLE and HALT every phase selects an operation. -/
theorem decode_first_of_running {s : State} (hidle : s.phase ≠ .idle) (hhalt : s.phase ≠ .halt) :
    ∃ i, decode (phaseSelector s .first) = .ok i := by
  cases hphase : s.phase with
  | idle => exact absurd hphase hidle
  | halt => exact absurd hphase hhalt
  | reasm =>
    rw [decode_reasm hphase]
    split
    · exact ⟨_, rfl⟩
    · split
      · exact ⟨_, rfl⟩
      · split <;> exact ⟨_, rfl⟩
  | range =>
    rw [decode_range hphase]
    split <;> exact ⟨_, rfl⟩
  | _ =>
    rw [phaseSelector, hphase]
    exact ⟨_, rfl⟩

/-- In IDLE the core waits for the host. -/
theorem coreStep_idle {s : State} (hphase : s.phase = .idle) : coreStep s = .next s := by
  rw [coreStep_eq, hphase]

theorem coreStep_halt {s : State} (hphase : s.phase = .halt) : coreStep s = .fault .halted := by
  rw [coreStep_eq, hphase]

/-- A core step waits in IDLE, stops in HALT, runs the selected operation elsewhere, and in RANGE the
scale after it. -/
theorem coreStep_cases (s : State) :
    (s.phase = .idle ∧ coreStep s = .next s) ∨ (s.phase = .halt ∧ coreStep s = .fault .halted) ∨
    ∃ i, decode (phaseSelector s .first) = .ok i ∧
      ((s.phase ≠ .range ∧ coreStep s = exec i s) ∨
        (s.phase = .range ∧ (i = .rngHold ∨ i = .rngScan) ∧
          coreStep s = andThen (exec i s) (exec .rngScale))) := by
  by_cases hidle : s.phase = .idle
  · exact .inl ⟨hidle, coreStep_idle hidle⟩
  by_cases hhalt : s.phase = .halt
  · exact .inr (.inl ⟨hhalt, coreStep_halt hhalt⟩)
  obtain ⟨i, hi⟩ := decode_first_of_running hidle hhalt
  refine .inr (.inr ⟨i, hi, ?_⟩)
  by_cases hrange : s.phase = .range
  · refine .inr ⟨hrange, ?_, coreStep_of_range hrange hi⟩
    rw [decode_range hrange] at hi
    split at hi <;> cases hi
    · exact .inl rfl
    · exact .inr rfl
  · exact .inl ⟨hrange, coreStep_of_ne_range hrange hi⟩

/-- Everything a core step can do when it goes on. -/
theorem coreStep_effects {s t : State} (h : coreStep s = .next t) :
    (s.phase = .idle ∧ t = s) ∨
    (∃ i, s.phase ≠ .range ∧ decode (phaseSelector s .first) = .ok i ∧ Effect i s t) ∨
    (s.phase = .range ∧ ∃ u, (Effect .rngHold s u ∨ Effect .rngScan s u) ∧ Effect .rngScale u t) := by
  obtain ⟨hidle, hcore⟩ | ⟨-, hcore⟩ | ⟨i, hi, ⟨hphase, hcore⟩ | ⟨hphase, hfirst, hcore⟩⟩ :=
    coreStep_cases s
  · cases hcore.symm.trans h
    exact .inl ⟨hidle, rfl⟩
  · cases hcore.symm.trans h
  · exact .inr (.inl ⟨i, hphase, hi, effect_of_exec (hcore.symm.trans h)⟩)
  · obtain ⟨u, hu, ht⟩ := andThen_eq_next.1 (hcore.symm.trans h)
    have hu' := effect_of_exec hu
    refine .inr (.inr ⟨hphase, u, ?_, effect_of_exec ht⟩)
    obtain rfl | rfl := hfirst
    · exact .inl hu'
    · exact .inr hu'

/-- The scan and the hold move neither the sequencer nor the records. -/
theorem effect_firstHalf_frame {s u : State} (h : Effect .rngHold s u ∨ Effect .rngScan s u) :
    u.phase = s.phase ∧ u.trace = s.trace ∧ u.causes = s.causes := by
  obtain h | h := h <;> cases h <;> exact ⟨rfl, rfl, rfl⟩

/-- What every operation keeps where it runs, a step keeps. -/
theorem step_keeps {I : State → Prop} (htake : ∀ s, I s → I (takeHost s))
    (heffect : ∀ {i s t}, Runs i s → Effect i s t → I s → I t) {s t : State} (hI : I s)
    (h : step s = .next t) : I t := by
  obtain ⟨a, -, hexec⟩ | ⟨-, hcore⟩ := step_next_cases h
  · exact heffect (runs_hostAction a _) (effect_of_exec hexec) (htake s hI)
  · obtain ⟨-, rfl⟩ | ⟨i, -, hi, hone⟩ | ⟨hphase, u, hfirst, hscale⟩ := coreStep_effects hcore
    · exact htake s hI
    · exact heffect (runs_of_decode hi) hone (htake s hI)
    · have hu : I u := hfirst.elim (heffect (i := .rngHold) hphase · (htake s hI))
        (heffect (i := .rngScan) hphase · (htake s hI))
      obtain ⟨huphase, -⟩ := effect_firstHalf_frame hfirst
      exact heffect (i := .rngScale) (huphase.trans hphase) hscale hu

end Sys2Proof.Machine

namespace Sys2Proof.Machine

/-! ### What the shared updates leave, for the invariants -/

@[simp] theorem writeReg_phase (num : BitVec 4) (value : BitVec 32) (s : State) :
    (writeReg num value s).phase = s.phase := by rw [writeReg_eq]
@[simp] theorem writeReg_pos (num : BitVec 4) (value : BitVec 32) (s : State) :
    (writeReg num value s).pos = s.pos := by rw [writeReg_eq]
@[simp] theorem writeReg_resets (num : BitVec 4) (value : BitVec 32) (s : State) :
    (writeReg num value s).resets = s.resets := by rw [writeReg_eq]
@[simp] theorem writeReg_segId (num : BitVec 4) (value : BitVec 32) (s : State) :
    (writeReg num value s).segId = s.segId := by rw [writeReg_eq]
@[simp] theorem writeReg_busOpen (num : BitVec 4) (value : BitVec 32) (s : State) :
    (writeReg num value s).busOpen = s.busOpen := by rw [writeReg_eq]

/-- The accepted packet field by field (40_synchronizer.md R83). -/
theorem packetAccepted_eq {s : State} (hpos : s.pos.toNat < 60) :
    packetAccepted s = { s with
      pos := BitVec.ofNat 6 (s.pos.toNat + 1)
      pollIn := if s.pos.toNat ∈ [19, 39, 59] then s.pollIn.tail else s.pollIn
      calls := s.calls ++ (if s.pos.toNat ∈ [19, 39, 59] then [.netPoll (pollAnswer s)] else [])
      trace := s.trace ++ (if s.pos.toNat ∈ [19, 39, 59] then polledEvents s else [])
      phase := if s.pos.toNat = 59 then .reasm else .seek } :=
  Host.Outcome.next.inj ((execPktAccept_eq s hpos).symm.trans (pktAcceptAdvancesAndPolls s hpos))

/-- Below 60 the next position fits its register. -/
theorem ofNat_succ_pos_toNat {pos : BitVec 6} (hpos : pos.toNat < 60) :
    (BitVec.ofNat 6 (pos.toNat + 1)).toNat = pos.toNat + 1 := by
  rw [BitVec.toNat_ofNat, Nat.mod_eq_of_lt (by omega)]

/-- One more desync fits the register. -/
theorem resets_succ_toNat {resets : BitVec 10} (h : resets.toNat < 1023) :
    (resets + 1).toNat = resets.toNat + 1 := by
  rw [BitVec.toNat_add]
  exact Nat.mod_eq_of_lt (Nat.succ_lt_succ h)

/-! ### The sequencer's registers by phase (10_state.md R13, R15, R16, R20) -/

/-- `SequencerInv` as a table of register values: one row for each phase. -/
def SequencerRow (p : Phase) (pos : BitVec 6) (resets : BitVec 10) (segId : BitVec 4)
    (variant : BitVec 1) (busOpen : Bool) : Prop :=
  match p with
  | .idle => pos = 0 ∧ resets = 0 ∧ segId = 0 ∧ busOpen = false
  | .attBegin | .halt =>
    pos.toNat ≤ 60 ∧ resets.toNat < 750 ∧ (variant = 0 → segId = 0) ∧ busOpen = true
  | .seek => pos.toNat < 60 ∧ resets.toNat < 750 ∧
      (if variant = 0 ∨ pos.toNat ≤ 20 then segId = 0 else segValid segId = true) ∧ busOpen = true
  | .backoff =>
    pos = 0 ∧ (1 ≤ resets.toNat ∧ resets.toNat ≤ 750) ∧ segId = 0 ∧ busOpen = true
  | .rbtClose => pos = 0 ∧ resets.toNat = 750 ∧ segId = 0 ∧ busOpen = true
  | .rbtReboot => pos = 0 ∧ resets.toNat = 750 ∧ segId = 0 ∧ busOpen = false
  | .rbtWarm | .rbtOpen => pos = 0 ∧ resets = 0 ∧ segId = 0 ∧ busOpen = false
  | .reasm => (pos.toNat = 60 ∨ (variant = 1 ∧ pos.toNat = 20)) ∧ resets.toNat < 750 ∧
      (if variant = 0 then segId = 0 else segValid segId = decide (pos.toNat = 60)) ∧ busOpen = true
  | .extract | .range | .map | .pubRaw | .pubPreview | .pubPoll => pos.toNat ≤ 60 ∧
      resets.toNat < 750 ∧ (if variant = 0 then segId = 0 else segId = 4) ∧ busOpen = true

theorem sequencerInv_iff (s : State) : SequencerInv s ↔
    SequencerRow s.phase s.pos s.resets s.segId s.cfgVariant s.busOpen := by
  obtain hvariant | hvariant := variant_cases s.cfgVariant <;>
    cases hphase : s.phase <;>
      simp [SequencerInv, posAllowed, resetsAllowed, segAllowed, handleAllowed, SequencerRow, hphase,
        hvariant]

/-- The row of the phase a state is in. -/
theorem SequencerInv.row {s : State} {p : Phase} (h : SequencerInv s) (hphase : s.phase = p) :
    SequencerRow p s.pos s.resets s.segId s.cfgVariant s.busOpen := hphase ▸ (sequencerInv_iff s).1 h

/-- What an accepted packet leaves: the next position, in high-res with the identifier that
packet 20 set (40_synchronizer.md R83). -/
theorem sequencerInv_packetAccepted {s : State} (hphase : s.phase = .seek) (hpos : s.pos.toNat < 60)
    (hplain : ¬ (s.cfgVariant = 1 ∧ s.pos.toNat = 20)) (hinv : SequencerInv s) :
    SequencerInv (packetAccepted s) := by
  obtain ⟨-, hresets, hseg, hbus⟩ := hinv.row hphase
  have hnext := ofNat_succ_pos_toNat hpos
  have hsame : (s.cfgVariant = 0 ∨ s.pos.toNat ≤ 20) ↔ (s.cfgVariant = 0 ∨ s.pos.toNat + 1 ≤ 20) := by
    obtain hvariant | hvariant := variant_cases s.cfgVariant
    · simp [hvariant]
    · have h20 : s.pos.toNat ≠ 20 := fun h => hplain ⟨hvariant, h⟩
      have hhigh : s.cfgVariant ≠ 0 := by rw [hvariant]; decide
      simp only [hhigh, false_or]
      omega
  simp only [hsame] at hseg
  rw [packetAccepted_eq hpos, sequencerInv_iff]
  by_cases hlast : s.pos.toNat = 59
  · simp only [hlast, show ¬ (59 + 1 ≤ 20) by decide, or_false] at hseg
    simp only [hlast, if_true, SequencerRow]
    refine ⟨.inl (by decide), hresets, ?_, hbus⟩
    split at hseg
    · next hlow => rwa [if_pos hlow]
    · next hhigh => rw [if_neg hhigh, hseg]; rfl
  · simp only [hlast, if_false, SequencerRow, hnext]
    exact ⟨by omega, hresets, hseg, hbus⟩

/-- The start of a pass, where no identifier is known yet. -/
theorem sequencerRow_seek_zero {resets : BitVec 10} {variant : BitVec 1} {busOpen : Bool}
    (hresets : resets.toNat < 750) (hbus : busOpen = true) :
    SequencerRow .seek 0 resets 0 variant busOpen :=
  ⟨by decide, hresets, by simp, hbus⟩

/-- Every operation keeps the registers in the row of the phase it leads to. -/
theorem effect_keeps_sequencerInv {i : Instr} {s t : State} (hruns : Runs i s) (h : Effect i s t)
    (hinv : SequencerInv s) : SequencerInv t := by
  induction h with
  | pktRdPacket hbus hpos hop ih => exact ih (runs_packetOp hruns) hinv
  | cfgWrIgnored | startIgnored | cfgRd | pktRdSilent | rngHold | rngScan => exact hinv
  | cmdPoll => exact hruns.elim
  | @cfgWr num value s hphase =>
    rw [sequencerInv_iff, writeReg_phase, writeReg_pos, writeReg_resets, writeReg_segId,
      writeReg_busOpen, hphase]
    exact hinv.row hphase
  | @start netOk s hphase =>
    obtain ⟨hpos, hresets, hseg, -⟩ := hinv.row hphase
    rw [sequencerInv_iff]
    show SequencerRow .attBegin s.pos s.resets s.segId s.cfgVariant true
    exact ⟨by simp [hpos], by simp [hresets], fun _ => hseg, rfl⟩
  | @reset s =>
    rw [sequencerInv_iff]
    show SequencerRow .idle 0 0 0 0 false
    exact ⟨rfl, rfl, rfl, rfl⟩
  | @attBegin s =>
    obtain ⟨-, -, -, hbus⟩ := hinv.row hruns
    rw [pollCommand_eq, sequencerInv_iff]
    show SequencerRow .seek 0 0 0 s.cfgVariant s.busOpen
    exact sequencerRow_seek_zero (by decide) hbus
  | @pktRdFatal s _ _ | @pktFatal s =>
    obtain ⟨hpos, hresets, hseg, hbus⟩ := hinv.row hruns
    rw [sequencerInv_iff]
    show SequencerRow .halt s.pos s.resets s.segId s.cfgVariant s.busOpen
    exact ⟨by omega, hresets, fun hvariant => by rwa [if_pos (.inl hvariant)] at hseg, hbus⟩
  | pktAccept hpos =>
    obtain ⟨hphase, -, hplain⟩ := hruns
    exact sequencerInv_packetAccepted hphase hpos hplain hinv
  | @pktSegok seg s =>
    obtain ⟨hphase, -, hvariant, -, hvalid, -⟩ := hruns
    obtain ⟨-, hresets, -, hbus⟩ := hinv.row hphase
    rw [sequencerInv_iff]
    show SequencerRow .seek 21 s.resets seg s.cfgVariant s.busOpen
    exact ⟨by decide, hresets, by rwa [hvariant, if_neg (by decide)], hbus⟩
  | @pktSegbad seg s =>
    obtain ⟨hphase, -, hvariant, hpos, hvalid, -⟩ := hruns
    obtain ⟨-, hresets, -, hbus⟩ := hinv.row hphase
    rw [sequencerInv_iff]
    show SequencerRow .reasm s.pos s.resets seg s.cfgVariant s.busOpen
    exact ⟨.inr ⟨hvariant, hpos⟩, hresets, by rw [hvariant, if_neg (by decide), hvalid, hpos]; rfl, hbus⟩
  | @pktDesync s hresets =>
    obtain ⟨-, hlt, -, hbus⟩ := hinv.row hruns
    have hnext := resets_succ_toNat hresets
    rw [sequencerInv_iff]
    show SequencerRow .backoff 0 (s.resets + 1) 0 s.cfgVariant s.busOpen
    exact ⟨rfl, by omega, rfl, hbus⟩
  | @synBackoff s hne =>
    obtain ⟨hpos, hresets, hseg, hbus⟩ := hinv.row hruns
    rw [sequencerInv_iff]
    show SequencerRow .seek s.pos s.resets s.segId s.cfgVariant s.busOpen
    rw [hpos, hseg]
    exact sequencerRow_seek_zero (by omega) hbus
  | @synBackoffThreshold s h750 =>
    obtain ⟨hpos, -, hseg, hbus⟩ := hinv.row hruns
    rw [sequencerInv_iff]
    show SequencerRow .rbtClose s.pos s.resets s.segId s.cfgVariant s.busOpen
    exact ⟨hpos, h750, hseg, hbus⟩
  | @rbtClose s =>
    obtain ⟨hpos, hresets, hseg, -⟩ := hinv.row hruns
    rw [sequencerInv_iff]
    show SequencerRow .rbtReboot s.pos s.resets s.segId s.cfgVariant false
    exact ⟨hpos, hresets, hseg, rfl⟩
  | @rbtReboot s =>
    obtain ⟨hpos, -, hseg, hbus⟩ := hinv.row hruns
    rw [sequencerInv_iff]
    show SequencerRow .rbtWarm s.pos 0 s.segId s.cfgVariant s.busOpen
    exact ⟨hpos, rfl, hseg, hbus⟩
  | @rbtWarm s =>
    rw [sequencerInv_iff]
    exact hinv.row (p := .rbtWarm) hruns
  | @rbtOpen s =>
    obtain ⟨hpos, hresets, hseg, -⟩ := hinv.row hruns
    rw [sequencerInv_iff]
    show SequencerRow .seek s.pos s.resets s.segId s.cfgVariant true
    rw [hpos, hresets, hseg]
    exact sequencerRow_seek_zero (by decide) rfl
  | @rsmStoreLr s =>
    obtain ⟨hphase, hvariant⟩ := hruns
    obtain ⟨hpos, hresets, hseg, hbus⟩ := hinv.row hphase
    rw [sequencerInv_iff]
    show SequencerRow .extract s.pos s.resets s.segId s.cfgVariant s.busOpen
    rw [if_pos hvariant] at hseg
    exact ⟨by omega, hresets, by rwa [if_pos hvariant], hbus⟩
  | @rsmStoreHr4 s =>
    obtain ⟨hphase, hvariant, hseg⟩ := hruns
    obtain ⟨hpos, hresets, -, hbus⟩ := hinv.row hphase
    rw [sequencerInv_iff]
    show SequencerRow .extract s.pos s.resets s.segId s.cfgVariant s.busOpen
    exact ⟨by omega, hresets, by rwa [hvariant, if_neg (by decide)], hbus⟩
  | @rsmStoreHr s _ | @rsmInvalid s =>
    obtain ⟨hphase, hvariant, -⟩ := hruns
    obtain ⟨hpos, hresets, -, hbus⟩ := hinv.row hphase
    rw [sequencerInv_iff]
    show SequencerRow .attBegin s.pos s.resets s.segId s.cfgVariant s.busOpen
    exact ⟨by omega, hresets, fun h => absurd (h.symm.trans hvariant) (by decide), hbus⟩
  | rsmExtract | rngScale | palMap | pubRaw | pubPreview =>
    have hrow := hinv.row hruns
    rw [sequencerInv_iff]
    exact hrow
  | @pubPoll s =>
    obtain ⟨hpos, hresets, hseg, hbus⟩ := hinv.row hruns
    rw [pollCommand_eq, sequencerInv_iff]
    show SequencerRow .attBegin s.pos s.resets s.segId s.cfgVariant s.busOpen
    exact ⟨hpos, hresets, fun hvariant => by rwa [if_pos hvariant] at hseg, hbus⟩

/-- Settles O47: each operation leads from the row of the phase it runs in to that of its next phase. -/
theorem stepKeepsSequencerRanges : Obligations.StepKeepsSequencerRanges := by
  unfold Obligations.StepKeepsSequencerRanges
  exact fun s t => step_keeps (fun _ h => h) effect_keeps_sequencerInv

end Sys2Proof.Machine

namespace Sys2Proof.Machine

/-! ### The phase an operation runs in (10_state.md R12, 30_encoding.md R70) -/

/-- The phase a step runs the operation in; a host move has none of its own, and CMD.POLL runs only
inside other operations. -/
def phaseOf : Instr → Option Phase
  | .cfgWr _ _ | .cfgRd _ | .start _ | .reset | .cmdPoll => none
  | .attBegin => some .attBegin
  | .pktRd | .pktAccept | .pktSegok _ | .pktSegbad _ | .pktDesync | .pktFatal => some .seek
  | .synBackoff => some .backoff
  | .rbtClose => some .rbtClose
  | .rbtReboot => some .rbtReboot
  | .rbtWarm => some .rbtWarm
  | .rbtOpen => some .rbtOpen
  | .rsmStoreLr | .rsmStoreHr | .rsmStoreHr4 | .rsmInvalid => some .reasm
  | .rsmExtract => some .extract
  | .rngHold | .rngScan | .rngScale => some .range
  | .palMap => some .map
  | .pubRaw => some .pubRaw
  | .pubPreview => some .pubPreview
  | .pubPoll => some .pubPoll

theorem Runs.phase_eq {i : Instr} {s : State} {p : Phase} (h : Runs i s) (hp : phaseOf i = some p) :
    s.phase = p := by
  cases i with
  | cfgWr _ _ | cfgRd _ | start _ | reset | cmdPoll => cases hp
  | pktAccept | pktSegok _ | pktSegbad _ | rsmStoreLr | rsmStoreHr | rsmStoreHr4 | rsmInvalid =>
    cases hp
    exact h.1
  | _ =>
    cases hp
    exact h

theorem Runs.phase_ne {i : Instr} {s : State} {p q : Phase} (h : Runs i s) (hp : phaseOf i = some p)
    (hne : p ≠ q) : s.phase ≠ q := h.phase_eq hp ▸ hne

/-! ### The range registers (10_state.md R18, R19, R23) -/

/-- The phases in which `diff` and its flag are those of the bounds. -/
def scaledPhases : List Phase := [.map, .pubRaw, .pubPreview, .pubPoll]

/-- What the range invariant reads beside the phase. -/
def State.rangeRegisters (s : State) :
    (BitVec 2 × BitVec 2 × BitVec 16 × BitVec 16) × (BitVec 16 × BitVec 16 × BitVec 16 × Bool) :=
  ((s.cfgPalette, s.cfgAuto, s.cfgMin, s.cfgMax),
    (s.rangeMin, s.rangeMax, s.diff, s.rangeDegenerate))

/-- An operation that writes none of these registers keeps the invariant, unless it enters the scaled
phases. -/
theorem RangeInv.of_frame {s t : State} (h : RangeInv s) (hframe : t.rangeRegisters = s.rangeRegisters)
    (hrunning : s.phase ≠ .idle) (hphase : t.phase ∈ scaledPhases → s.phase ∈ scaledPhases) :
    RangeInv t := by
  obtain ⟨hdiff, hpalette, hpinned, hscaled⟩ := h
  simp only [State.rangeRegisters, Prod.mk.injEq] at hframe
  obtain ⟨⟨epalette, eauto, ecmin, ecmax⟩, emin, emax, ediff, edeg⟩ := hframe
  simp only [RangeInv, autoMin, autoMax, epalette, eauto, ecmin, ecmax, emin, emax, ediff, edeg]
  exact ⟨hdiff, hpalette, fun _ => hpinned hrunning, fun ht => hscaled (hphase ht)⟩

/-- The clamp keeps `diff` off 0 (42_range_tracker.md R118). -/
theorem clampedDiff_ne_zero (lo hi : BitVec 16) : clampedDiff lo hi ≠ 0 := by
  unfold clampedDiff
  cases hdegenerate : degenerate lo hi
  · have hwidth : ¬ rangeWidth lo hi < 1 := of_decide_eq_false hdegenerate
    have hhi := hi.isLt
    have hle : rangeWidth lo hi ≤ hi.toNat := Int.sub_le_self _ (Int.natCast_nonneg _)
    intro hzero
    have hmod := congrArg BitVec.toNat hzero
    rw [if_neg Bool.false_ne_true, BitVec.toNat_ofNat, Nat.mod_eq_of_lt (by omega)] at hmod
    have hval : (0 : BitVec 16).toNat = 0 := rfl
    omega
  · rw [if_pos rfl]
    decide

/-- CFG.WR cannot write the reserved palette code (45_host_control.md R146). -/
theorem writeReg_cfgPalette_ne (num : BitVec 4) (value : BitVec 32) {s : State}
    (h : s.cfgPalette ≠ 3) : (writeReg num value s).cfgPalette ≠ 3 := by
  rw [writeReg_eq]
  show (if num = 1 ∧ value.toNat % 4 ≠ 3 then value.setWidth 2 else s.cfgPalette) ≠ 3
  split
  · next hcode => exact mt (setWidth_two_eq_three_iff value).1 hcode.2
  · exact h

theorem writeReg_diff (num : BitVec 4) (value : BitVec 32) (s : State) :
    (writeReg num value s).diff = s.diff := by rw [writeReg_eq]

theorem packetAccepted_phase {s : State} (hpos : s.pos.toNat < 60) :
    (packetAccepted s).phase = if s.pos.toNat = 59 then .reasm else .seek := by
  rw [packetAccepted_eq hpos]

/-- Every operation keeps the range registers lawful: only CFG.WR, START, RESET, the scan and the
scale write one of them. -/
theorem effect_keeps_rangeInv {i : Instr} {s t : State} (hruns : Runs i s) (h : Effect i s t)
    (hinv : RangeInv s) : RangeInv t := by
  induction h with
  | pktRdPacket hbus hpos hop ih =>
    exact ih (runs_packetOp hruns) (hinv.of_frame rfl (hruns.phase_ne rfl (by decide)) id)
  | cfgWrIgnored | startIgnored | cfgRd | pktRdSilent | rngHold => exact hinv
  | cmdPoll => exact hruns.elim
  | cfgWr hphase =>
    obtain ⟨hdiff, hpalette, -⟩ := hinv
    refine ⟨by rwa [writeReg_diff], writeReg_cfgPalette_ne _ _ hpalette, ?_, ?_⟩
    all_goals rw [writeReg_phase, hphase]
    · exact fun hne => absurd rfl hne
    · exact fun hmem => absurd hmem (by decide)
  | start hphase =>
    obtain ⟨hdiff, hpalette, -⟩ := hinv
    exact ⟨hdiff, hpalette, fun _ => ⟨fun _ => rfl, fun _ => rfl⟩, fun hmem => absurd hmem (by simp [started])⟩
  | reset =>
    simp [RangeInv, resetKeepingInputs]
  | pktRdFatal | pktSegok | pktSegbad | pktDesync | pktFatal | synBackoff | synBackoffThreshold
  | rbtClose | rbtReboot | rbtWarm | rbtOpen | rsmStoreLr | rsmStoreHr | rsmStoreHr4 | rsmInvalid
  | rsmExtract =>
    exact hinv.of_frame rfl (hruns.phase_ne rfl (by decide)) fun hmem => absurd hmem (by simp [scaledPhases])
  | attBegin | pubPoll =>
    refine hinv.of_frame ?_ (hruns.phase_ne rfl (by decide)) fun hmem => absurd hmem (by simp [scaledPhases])
    rw [pollCommand_eq]
    rfl
  | pktAccept hpos =>
    refine hinv.of_frame (by rw [packetAccepted_eq hpos]; rfl) (hruns.phase_ne rfl (by decide)) fun hmem => ?_
    rw [packetAccepted_phase hpos] at hmem
    split at hmem <;> exact absurd hmem (by decide)
  | rngScan =>
    obtain ⟨hdiff, hpalette, hpinned, -⟩ := hinv
    obtain ⟨hmin, hmax⟩ := hpinned (hruns.phase_ne rfl (by decide))
    refine ⟨hdiff, hpalette, fun _ => ⟨fun hauto => ?_, fun hauto => ?_⟩, fun hmem => ?_⟩
    · exact (if_neg (ne_true_of_eq_false hauto)).trans (hmin hauto)
    · exact (if_neg (ne_true_of_eq_false hauto)).trans (hmax hauto)
    · exact absurd (hruns ▸ hmem) (by decide)
  | rngScale =>
    obtain ⟨-, hpalette, hpinned, -⟩ := hinv
    exact ⟨clampedDiff_ne_zero _ _, hpalette, fun _ => hpinned (hruns.phase_ne rfl (by decide)), fun _ => ⟨rfl, rfl⟩⟩
  | palMap | pubRaw | pubPreview =>
    exact hinv.of_frame rfl (hruns.phase_ne rfl (by decide)) fun _ => by rw [show _ = _ from hruns]; decide

/-- Settles O48: an operation that writes a range register writes a lawful value. -/
theorem stepKeepsRangeRegisters : Obligations.StepKeepsRangeRegisters := by
  unfold Obligations.StepKeepsRangeRegisters
  exact fun s t => step_keeps (fun _ h => h) effect_keeps_rangeInv

end Sys2Proof.Machine

namespace Sys2Proof.Machine

/-! ### Memories in canonical form (20_memory.md R40 to R45) -/

/-- What the memory invariant reads beside the phase. -/
def State.memories (s : State) : Mem Byte × Vector (Mem Byte) 4 × Mem Sample × Mem Pixel × BitVec 1 :=
  (s.pktbuf, s.shelf, s.grid, s.preview, s.cfgVariant)

/-- An operation that writes no memory keeps the invariant, unless it enters IDLE. -/
theorem MemoryInv.of_frame {s t : State} (h : MemoryInv s) (hframe : t.memories = s.memories)
    (hphase : t.phase ≠ .idle) : MemoryInv t := by
  obtain ⟨hpktbuf, hslots, hgrid, hpreview, -, hcorner⟩ := h
  simp only [State.memories, Prod.mk.injEq] at hframe
  obtain ⟨epktbuf, eshelf, egrid, epreview, evariant⟩ := hframe
  simp only [MemoryInv, State.slot, epktbuf, eshelf, egrid, epreview, evariant]
  exact ⟨hpktbuf, hslots, hgrid, hpreview, fun hidle => absurd hidle hphase, hcorner⟩

/-- With empty image memories the invariant asks only for canonical bytes. -/
theorem memoryInv_of_no_image {s : State} (hpktbuf : memWf 0 9840 s.pktbuf = true)
    (hslots : ∀ k, k < 4 → memWf 0 9840 (s.slot k) = true) (hgrid : s.grid = [])
    (hpreview : s.preview = []) : MemoryInv s := by
  refine ⟨hpktbuf, hslots, ?_, ?_, fun _ => ⟨hgrid, hpreview⟩, fun _ r c _ _ _ => ?_⟩
  · rw [hgrid, memWf_nil]
  · rw [hpreview, memWf_nil]
  · rw [hgrid, readAt_nil]

/-- The image memories are empty in IDLE, so a change of variant there does not matter. -/
theorem memoryInv_writeReg (num : BitVec 4) (value : BitVec 32) {s : State} (hphase : s.phase = .idle)
    (h : MemoryInv s) : MemoryInv (writeReg num value s) := by
  obtain ⟨hpktbuf, hslots, -, -, hidle, -⟩ := h
  obtain ⟨hgrid, hpreview⟩ := hidle hphase
  rw [writeReg_eq]
  exact memoryInv_of_no_image hpktbuf hslots hgrid hpreview

/-- A stored packet lies inside `pktbuf` (20_memory.md R41). -/
theorem memWf_packetStored {s : State} (p : Packet) (rest : List BusAnswer) (hpos : s.pos.toNat < 60)
    (h : memWf 0 9840 s.pktbuf = true) : memWf 0 9840 (packetStored s p rest).pktbuf = true := by
  have hlen : p.toList.length = 164 := Vector.length_toList
  refine memWf_writeFrom 0 9840 p.toList s.pktbuf _ h ?_
  show 164 * s.pos.toNat + p.toList.length ≤ 9840
  omega

theorem memoryInv_packetStored {s : State} (p : Packet) (rest : List BusAnswer)
    (hpos : s.pos.toNat < 60) (h : MemoryInv s) : MemoryInv (packetStored s p rest) := by
  obtain ⟨hpktbuf, hothers⟩ := h
  exact ⟨memWf_packetStored p rest hpos hpktbuf, hothers⟩

/-- A slot of the shelf takes the canonical copy of `pktbuf` (20_memory.md R49). -/
theorem memoryInv_storeSegment {s : State} {k : Nat} (p : Phase) (hk : k < 4) (hp : p ≠ .idle)
    (h : MemoryInv s) : MemoryInv (goto p (storeSegment k s)) := by
  obtain ⟨hpktbuf, hslots, hgrid, hpreview, -, hcorner⟩ := h
  refine ⟨hpktbuf, fun j hj => ?_, hgrid, hpreview, fun hidle => absurd hidle hp, hcorner⟩
  have hslot : (goto p (storeSegment k s)).slot j = if j = k then below 9840 s.pktbuf else s.slot j :=
    slot_storeSegment k j s hk
  rw [hslot]
  split
  · exact memWf_below 0 9840 9840 s.pktbuf hpktbuf
  · exact hslots j hj

theorem memWf_extractSample {v : BitVec 1} {m : Mem Sample} (x : FrameSample)
    (h : memWf 0 19200 m = true) : memWf 0 19200 (extractSample v m x) = true := by
  unfold extractSample
  dsimp only
  split
  · next hin => exact memWf_writeAt 0 19200 m _ _ h (gridIndex_lt v _ hin)
  · exact h

theorem memWf_mapSample {p : Palette} {s : State} {m : Mem Pixel} (x : FrameSample)
    (h : memWf Pixel.black (Config.width s.cfgVariant * Config.height s.cfgVariant) m = true) :
    memWf Pixel.black (Config.width s.cfgVariant * Config.height s.cfgVariant)
      (mapSample p s m x) = true := by
  unfold mapSample
  dsimp only
  split
  · next hin => exact memWf_writeAt _ _ m _ _ h (previewIndex_lt s.cfgVariant _ hin)
  · exact h

/-- In low-res extraction writes inside the 80x60 corner only (20_memory.md R44). -/
theorem readAt_extracted_outside_corner {s : State} (hvariant : s.cfgVariant = 0) {r c : Nat}
    (hc : c < 160) (hout : ¬ (r < 60 ∧ c < 80)) :
    readAt 0 ((frameSamples s).foldl (extractSample s.cfgVariant) s.grid) (160 * r + c) =
      readAt 0 s.grid (160 * r + c) := by
  rw [foldl_extractSample]
  refine readAt_foldl_other 0 _ FrameSample.value _ _ _ fun x hx hcell => hout ?_
  obtain ⟨hk, hi, -⟩ := slotSample_of_mem_frameSamples hx
  obtain ⟨hrow, hcol⟩ := (inBounds_iff _ _).1 (inBounds_positionOf hk hi)
  rw [hvariant] at hrow hcol hcell
  have hheight : Config.height 0 = 60 := rfl
  have hwidth : Config.width 0 = 80 := rfl
  simp only [FrameSample.cell, gridIndex, Config.gridWidth] at hcell
  omega

/-- Every operation that writes a memory writes inside its space, in canonical form. -/
theorem effect_keeps_memoryInv {i : Instr} {s t : State} (hruns : Runs i s) (h : Effect i s t)
    (hinv : MemoryInv s) : MemoryInv t := by
  induction h with
  | @pktRdPacket s p rest t hbus hpos hop ih =>
    exact ih (runs_packetOp hruns) (memoryInv_packetStored p rest hpos hinv)
  | cfgWrIgnored | startIgnored | cfgRd | pktRdSilent | rngHold => exact hinv
  | cmdPoll => exact hruns.elim
  | cfgWr hphase => exact memoryInv_writeReg _ _ hphase hinv
  | start hphase => exact hinv.of_frame rfl (by simp [started])
  | @reset s =>
    refine memoryInv_of_no_image rfl (fun k _ => ?_) rfl rfl
    show memWf 0 9840 ((State.resetWith s.params).slot k) = true
    rw [slot_resetWith, memWf_nil]
  | pktRdFatal | pktSegok | pktSegbad | pktDesync | pktFatal | synBackoff | synBackoffThreshold
  | rbtClose | rbtReboot | rbtWarm | rbtOpen | rsmInvalid | rngScale | pubRaw | pubPreview =>
    exact hinv.of_frame rfl (by simp [rangeScaled])
  | rngScan => exact hinv.of_frame rfl (hruns.phase_ne rfl (by decide))
  | attBegin | pubPoll => exact hinv.of_frame (by rw [pollCommand_eq]; rfl) (by simp)
  | pktAccept hpos =>
    refine hinv.of_frame (by rw [packetAccepted_eq hpos]; rfl) ?_
    rw [packetAccepted_phase hpos]
    split <;> decide
  | rsmStoreLr => exact memoryInv_storeSegment .extract (by decide) (by decide) hinv
  | rsmStoreHr hseg => exact memoryInv_storeSegment .attBegin (by omega) (by decide) hinv
  | rsmStoreHr4 => exact memoryInv_storeSegment .extract (by decide) (by decide) hinv
  | @rsmExtract s =>
    obtain ⟨hpktbuf, hslots, hgrid, hpreview, -, hcorner⟩ := hinv
    refine ⟨hpktbuf, hslots, ?_, hpreview, nofun, fun hvariant r c hr hc hout => ?_⟩
    · exact memWf_foldl 0 19200 _ (fun _ x hm => memWf_extractSample x hm) _ _ hgrid
    · exact (readAt_extracted_outside_corner (s := s) hvariant hc hout).trans (hcorner hvariant r c hr hc hout)
  | palMap =>
    obtain ⟨hpktbuf, hslots, hgrid, hpreview, -, hcorner⟩ := hinv
    refine ⟨hpktbuf, hslots, hgrid, ?_, nofun, hcorner⟩
    exact memWf_foldl _ _ _ (fun _ x hm => memWf_mapSample x hm) _ _ hpreview

/-- Settles O49: every written index is inside the memory, and a low-res sample inside the corner. -/
theorem stepKeepsMemoriesCanonical : Obligations.StepKeepsMemoriesCanonical := by
  unfold Obligations.StepKeepsMemoriesCanonical
  exact fun s t => step_keeps (fun _ h => h) effect_keeps_memoryInv

end Sys2Proof.Machine

namespace Sys2Proof.Machine

/-! ### Sequenced segments (40_synchronizer.md, contract; 10_state.md R29 a) -/

/-- What the current pass has acquired is in order, and the identifier it kept is packet 20's. -/
def PassSequenced (s : State) : Prop :=
  (s.phase = .seek → Sequenced s.pktbuf s.pos.toNat) ∧
  (s.phase = .reasm → s.pos.toNat = 60 → Sequenced s.pktbuf 60) ∧
  (s.cfgVariant = 1 → (s.phase = .seek ∧ 20 < s.pos.toNat) ∨ s.phase = .reasm →
    segField (headerAt s.pktbuf 20) = s.segId)

/-- Every slot of the shelf is empty or holds a segment in order, in the slot its identifier names. -/
def ShelfSequenced (s : State) : Prop :=
  (∀ k, k < 4 → s.slot k = [] ∨ (Sequenced (s.slot k) 60 ∧
    (s.cfgVariant = 1 → (segField (headerAt (s.slot k) 20)).toNat = k + 1))) ∧
  (s.cfgVariant = 0 → ∀ k, 1 ≤ k → k < 4 → s.slot k = [])

theorem segmentInv_iff (s : State) : SegmentInv s ↔
    PassSequenced s ∧ ShelfSequenced s ∧ (s.phase = .idle → ∀ k, k < 4 → s.slot k = []) := by
  simp only [SegmentInv, PassSequenced, ShelfSequenced, and_assoc]

/-- Where a pass has nothing yet, or has been stored or given up, nothing is asked of `pktbuf`. -/
theorem passSequenced_of_nothing_acquired {s : State} (hreasm : s.phase ≠ .reasm)
    (hpos : s.phase = .seek → s.pos = 0) : PassSequenced s := by
  refine ⟨fun hseek q hq => ?_, fun h => absurd h hreasm, ?_⟩
  · rw [hpos hseek] at hq
    exact absurd hq (Nat.not_lt_zero q)
  · rintro - (⟨hseek, hlt⟩ | h)
    · rw [hpos hseek] at hlt
      exact absurd hlt (by decide)
    · exact absurd h hreasm

/-- The invariant where a pass has nothing yet, or has been stored or given up. -/
theorem segmentInv_of_nothing_acquired {s : State} (hreasm : s.phase ≠ .reasm)
    (hpos : s.phase = .seek → s.pos = 0) (hidle : s.phase ≠ .idle) (hshelf : ShelfSequenced s) :
    SegmentInv s :=
  (segmentInv_iff s).2
    ⟨passSequenced_of_nothing_acquired hreasm hpos, hshelf, fun h => absurd h hidle⟩

theorem shelfSequenced_of_empty {s : State} (h : ∀ k, k < 4 → s.slot k = []) : ShelfSequenced s :=
  ⟨fun k hk => .inl (h k hk), fun _ k _ hk => h k hk⟩

/-- In IDLE the shelf is empty, so every clause holds whatever the configuration becomes. -/
theorem segmentInv_of_idle {s : State} (hphase : s.phase = .idle) (h : ∀ k, k < 4 → s.slot k = []) :
    SegmentInv s := by
  refine (segmentInv_iff s).2 ⟨passSequenced_of_nothing_acquired ?_ ?_, shelfSequenced_of_empty h, fun _ => h⟩
  all_goals
    rw [hphase]
    nofun

theorem slot_writeReg (num : BitVec 4) (value : BitVec 32) (s : State) (k : Nat) :
    (writeReg num value s).slot k = s.slot k := by
  rw [writeReg_eq]
  rfl

theorem Sequenced.succ {m : Mem Byte} {n : Nat} (h : Sequenced m n)
    (hn : (seqField (headerAt m n)).toNat = n) : Sequenced m (n + 1) := by
  intro q hq
  obtain hlt | rfl := Nat.lt_succ_iff_lt_or_eq.1 hq
  · exact h q hlt
  · exact hn

theorem Sequenced.below {m : Mem Byte} (h : Sequenced m 60) : Sequenced (below 9840 m) 60 := by
  intro q hq
  rw [headerAt_below m q hq]
  exact h q hq

/-- A packet stored at the expected position leaves the earlier packets of the pass alone. -/
theorem headerAt_packetStored_of_ne (s : State) (p : Packet) (rest : List BusAnswer) {q : Nat}
    (hq : q ≠ s.pos.toNat) : headerAt (packetStored s p rest).pktbuf q = headerAt s.pktbuf q :=
  headerAt_storePacket_other p _ q hq

theorem segmentInv_packetStored {s : State} (p : Packet) (rest : List BusAnswer)
    (hphase : s.phase = .seek) (h : SegmentInv s) : SegmentInv (packetStored s p rest) := by
  obtain ⟨⟨hseq, -, hseg⟩, hshelf, hidle⟩ := (segmentInv_iff s).1 h
  have hnotReasm : (packetStored s p rest).phase ≠ .reasm := by
    rw [show (packetStored s p rest).phase = .seek from hphase]
    decide
  refine (segmentInv_iff _).2 ⟨⟨fun _ q hq => ?_, fun hr => absurd hr hnotReasm, ?_⟩, hshelf, hidle⟩
  · rw [headerAt_packetStored_of_ne s p rest (Nat.ne_of_lt hq)]
    exact hseq hphase q hq
  · rintro hvariant (⟨-, hlt⟩ | hr)
    · rw [headerAt_packetStored_of_ne s p rest (Nat.ne_of_lt hlt)]
      exact hseg hvariant (.inl ⟨hphase, hlt⟩)
    · exact absurd hr hnotReasm

/-- An accepted packet is the next in order (40_synchronizer.md R83). -/
theorem segmentInv_packetAccepted {s : State} (hpos : s.pos.toNat < 60) (hphase : s.phase = .seek)
    (horder : HeaderInOrder s) (hplain : ¬ (s.cfgVariant = 1 ∧ s.pos.toNat = 20))
    (h : SegmentInv s) : SegmentInv (packetAccepted s) := by
  obtain ⟨⟨hseq, -, hseg⟩, hshelf, -⟩ := (segmentInv_iff s).1 h
  have hnext : Sequenced s.pktbuf (s.pos.toNat + 1) := (hseq hphase).succ horder
  have hnextPos : (packetAccepted s).pos.toNat = s.pos.toNat + 1 := by
    rw [packetAccepted_eq hpos]
    exact ofNat_succ_pos_toNat hpos
  have hnextPhase := packetAccepted_phase hpos
  have hkept : (packetAccepted s).pktbuf = s.pktbuf ∧ (packetAccepted s).segId = s.segId ∧
      (packetAccepted s).cfgVariant = s.cfgVariant := by
    rw [packetAccepted_eq hpos]
    exact ⟨rfl, rfl, rfl⟩
  obtain ⟨epktbuf, esegId, evariant⟩ := hkept
  refine (segmentInv_iff _).2 ⟨?_, by rw [packetAccepted_eq hpos]; exact hshelf, fun hidle => ?_⟩
  · rw [PassSequenced, epktbuf, esegId, evariant, hnextPos]
    refine ⟨fun _ => hnext, fun _ hlast => hlast ▸ hnext, fun hvariant hphases => ?_⟩
    have h20 : s.pos.toNat ≠ 20 := fun h20 => hplain ⟨hvariant, h20⟩
    refine hseg hvariant (.inl ⟨hphase, ?_⟩)
    obtain ⟨-, hlt⟩ | hreasm := hphases
    · omega
    · rw [hnextPhase] at hreasm
      split at hreasm
      · omega
      · cases hreasm
  · rw [hnextPhase] at hidle
    split at hidle <;> cases hidle

/-- Storing a whole sequenced segment in the slot it names keeps the shelf (20_memory.md R42, R49). -/
theorem shelfSequenced_storeSegment {s : State} {k : Nat} (hk : k < 4) (h : ShelfSequenced s)
    (hseq : Sequenced s.pktbuf 60)
    (hname : s.cfgVariant = 1 → (segField (headerAt s.pktbuf 20)).toNat = k + 1)
    (hlow : s.cfgVariant = 0 → k = 0) : ShelfSequenced (storeSegment k s) := by
  obtain ⟨hslots, hempty⟩ := h
  refine ⟨fun j hj => ?_, fun hvariant j h1 hj => ?_⟩
  · rw [slot_storeSegment k j s hk]
    split
    · next hjk =>
      subst hjk
      refine .inr ⟨hseq.below, fun hvariant => ?_⟩
      rw [headerAt_below _ _ (by decide)]
      exact hname hvariant
    · exact hslots j hj
  · have hne : j ≠ k := by
      have hk0 := hlow hvariant
      omega
    rw [slot_storeSegment k j s hk, if_neg hne]
    exact hempty hvariant j h1 hj

/-- In REASM with a valid identifier the pass is complete (10_state.md R16). -/
theorem SequencerInv.pos_of_segValid {s : State} (h : SequencerInv s) (hphase : s.phase = .reasm)
    (hvariant : s.cfgVariant = 1) (hvalid : segValid s.segId = true) : s.pos.toNat = 60 := by
  obtain ⟨-, -, hseg, -⟩ := h.row hphase
  rw [hvariant, if_neg (by decide), hvalid] at hseg
  exact of_decide_eq_true hseg.symm

/-- In low-res REASM follows a complete pass only. -/
theorem SequencerInv.pos_of_low_res {s : State} (h : SequencerInv s) (hphase : s.phase = .reasm)
    (hvariant : s.cfgVariant = 0) : s.pos.toNat = 60 := by
  obtain ⟨hpos, -⟩ := h.row hphase
  exact hpos.resolve_right fun h1 => absurd (hvariant.symm.trans h1.1) (by decide)

/-- A high-res store goes to the slot that packet 20 of the acquired segment names. -/
theorem shelfSequenced_store_high_res {s : State} {k : Nat} (hseq : SequencerInv s)
    (h : SegmentInv s) (hphase : s.phase = .reasm) (hvariant : s.cfgVariant = 1)
    (hvalid : segValid s.segId = true) (hk : s.segId.toNat = k + 1) (hk4 : k < 4) :
    ShelfSequenced (storeSegment k s) := by
  obtain ⟨⟨-, hwhole, hseg⟩, hshelf, -⟩ := (segmentInv_iff s).1 h
  refine shelfSequenced_storeSegment hk4 hshelf
    (hwhole hphase (hseq.pos_of_segValid hphase hvariant hvalid)) (fun _ => ?_) fun h0 =>
      absurd (h0.symm.trans hvariant) (by decide)
  rw [hseg hvariant (.inr hphase), hk]

/-- Every operation keeps what is acquired and what is shelved in order. -/
theorem effect_keeps_segmentInv {i : Instr} {s t : State} (hruns : Runs i s) (h : Effect i s t)
    (hseq : SequencerInv s) (hinv : SegmentInv s) : SegmentInv t := by
  have hshelf : ShelfSequenced s := ((segmentInv_iff s).1 hinv).2.1
  induction h with
  | @pktRdPacket s p rest t hbus hpos hop ih =>
    exact ih (runs_packetOp hruns) hseq (segmentInv_packetStored p rest hruns hinv) hshelf
  | cfgWrIgnored | startIgnored | cfgRd | pktRdSilent | rngHold | rngScan => exact hinv
  | cmdPoll => exact hruns.elim
  | cfgWr hphase =>
    obtain ⟨-, -, hidle⟩ := (segmentInv_iff _).1 hinv
    refine segmentInv_of_idle ((writeReg_phase _ _ _).trans hphase) fun k hk => ?_
    rw [slot_writeReg]
    exact hidle hphase k hk
  | @reset s => exact segmentInv_of_idle rfl fun k _ => slot_resetWith s.params k
  | @attBegin s =>
    rw [pollCommand_eq]
    exact segmentInv_of_nothing_acquired nofun (fun _ => rfl) nofun hshelf
  | pubPoll =>
    rw [pollCommand_eq]
    exact segmentInv_of_nothing_acquired nofun nofun nofun hshelf
  | start | pktRdFatal | pktFatal | pktDesync | synBackoffThreshold | rbtClose | rbtReboot | rbtWarm
  | rsmInvalid | rsmExtract | rngScale | palMap | pubRaw | pubPreview =>
    exact segmentInv_of_nothing_acquired nofun nofun nofun hshelf
  | synBackoff | rbtOpen =>
    obtain ⟨hpos, -⟩ := hseq.row hruns
    exact segmentInv_of_nothing_acquired nofun (fun _ => hpos) nofun hshelf
  | pktAccept hpos =>
    obtain ⟨hphase, horder, hplain⟩ := hruns
    exact segmentInv_packetAccepted hpos hphase horder hplain hinv
  | @pktSegok seg s =>
    obtain ⟨hphase, horder, hvariant, hpos, -, hseg⟩ := hruns
    obtain ⟨⟨hacquired, -⟩, -⟩ := (segmentInv_iff s).1 hinv
    have hnext : Sequenced s.pktbuf (s.pos.toNat + 1) := (hacquired hphase).succ horder
    rw [hpos] at hnext
    exact (segmentInv_iff _).2 ⟨⟨fun _ => hnext, nofun, fun _ _ => hseg⟩, hshelf, nofun⟩
  | @pktSegbad seg s =>
    obtain ⟨hphase, -, -, hpos, -, hseg⟩ := hruns
    refine (segmentInv_iff _).2 ⟨⟨nofun, fun _ h60 => ?_, fun _ _ => hseg⟩, hshelf, nofun⟩
    exact absurd (hpos.symm.trans h60) (by decide)
  | @rsmStoreLr s =>
    obtain ⟨hphase, hvariant⟩ := hruns
    obtain ⟨⟨-, hwhole, -⟩, -⟩ := (segmentInv_iff s).1 hinv
    exact segmentInv_of_nothing_acquired nofun nofun nofun
      (shelfSequenced_storeSegment (by decide) hshelf
        (hwhole hphase (hseq.pos_of_low_res hphase hvariant))
        (fun h1 => absurd (hvariant.symm.trans h1) (by decide)) fun _ => rfl)
  | @rsmStoreHr s hvalid =>
    obtain ⟨hphase, hvariant, hseg⟩ := hruns
    exact segmentInv_of_nothing_acquired nofun nofun nofun
      (shelfSequenced_store_high_res hseq hinv hphase hvariant hseg (by omega) (by omega))
  | @rsmStoreHr4 s =>
    obtain ⟨hphase, hvariant, hseg⟩ := hruns
    exact segmentInv_of_nothing_acquired nofun nofun nofun
      (shelfSequenced_store_high_res hseq hinv hphase hvariant (by rw [hseg]; rfl) (by rw [hseg]; rfl)
        (by decide))

/-- Settles O50, with the ranges of the sequencer's registers carried along. -/
theorem stepKeepsSegmentsSequenced : Obligations.StepKeepsSegmentsSequenced := by
  unfold Obligations.StepKeepsSegmentsSequenced
  intro s t hseq hseg hstep
  have hkept : SequencerInv t ∧ SegmentInv t :=
    step_keeps (I := fun s => SequencerInv s ∧ SegmentInv s) (fun _ h => h)
      (fun hruns h hinv => ⟨effect_keeps_sequencerInv hruns h hinv.1,
        effect_keeps_segmentInv hruns h hinv.1 hinv.2⟩) ⟨hseq, hseg⟩ hstep
  exact hkept.2

end Sys2Proof.Machine

namespace Sys2Proof.Machine

/-! ### The records a poll adds to (44_publisher.md R135) -/

/-- A poll emits nothing but calibrations. -/
theorem countP_polledEvents {P : Event → Bool} (hP : P .sensorCalibrate = false) (s : State) :
    (polledEvents s).countP P = 0 := by
  unfold polledEvents
  split
  · split <;> simp [hP]
  · rfl

/-- A poll emits a calibration exactly when its answer is a command (44_publisher.md R140). -/
theorem count_polledEvents (s : State) : (polledEvents s).count .sensorCalibrate =
    [Call.netPoll (pollAnswer s)].countP (Call.isCommand s.params.cmdMaxLen) := by
  unfold polledEvents
  cases pollAnswer s with
  | none => rfl
  | some payload => cases htoken : hasToken s.params.cmdMaxLen payload <;> simp [Call.isCommand, htoken]

theorem length_polledEvents_le (s : State) : (polledEvents s).length ≤ 1 := by
  unfold polledEvents
  split
  · split <;> decide
  · decide

/-- What an accepted packet adds to the records: nothing, or one poll (40_synchronizer.md R83). -/
theorem packetAccepted_records {s : State} (hpos : s.pos.toNat < 60) :
    ((packetAccepted s).trace = s.trace ∧ (packetAccepted s).calls = s.calls) ∨
    ((packetAccepted s).trace = s.trace ++ polledEvents s ∧
      (packetAccepted s).calls = s.calls ++ [.netPoll (pollAnswer s)]) := by
  rw [packetAccepted_eq hpos]
  by_cases hpoll : s.pos.toNat ∈ [19, 39, 59]
  · exact .inr ⟨by simp only [if_pos hpoll], by simp only [if_pos hpoll]⟩
  · exact .inl ⟨by simp only [if_neg hpoll, List.append_nil],
      by simp only [if_neg hpoll, List.append_nil]⟩

@[simp] theorem writeReg_trace (num : BitVec 4) (value : BitVec 32) (s : State) :
    (writeReg num value s).trace = s.trace := by rw [writeReg_eq]
@[simp] theorem writeReg_calls (num : BitVec 4) (value : BitVec 32) (s : State) :
    (writeReg num value s).calls = s.calls := by rw [writeReg_eq]
@[simp] theorem writeReg_params (num : BitVec 4) (value : BitVec 32) (s : State) :
    (writeReg num value s).params = s.params := by rw [writeReg_eq]

/-! ### The balance of opens and closes (60_exceptions.md R172, 10_state.md R20) -/

/-- Events that are neither opens nor closes leave the balance. -/
theorem HandleInv.append {s t : State} {es : List Event} (h : HandleInv s)
    (htrace : t.trace = s.trace ++ es) (hbus : t.busOpen = s.busOpen)
    (hopen : es.countP Event.isBusOpen = 0) (hclose : es.countP Event.isBusClose = 0) :
    HandleInv t := by
  rw [HandleInv, htrace, hbus, List.countP_append, List.countP_append, hopen, hclose]
  exact h

/-- An open is emitted where the handle is closed. -/
theorem HandleInv.opened {s t : State} {busId : Nat} {clock : BitVec 32} (h : HandleInv s)
    (htrace : t.trace = s.trace ++ [.busOpen busId clock]) (hs : s.busOpen = false)
    (ht : t.busOpen = true) : HandleInv t := by
  unfold HandleInv at h ⊢
  rw [hs] at h
  simp [htrace, ht, h, Event.isBusOpen, Event.isBusClose]

/-- A close is emitted where the handle is open. -/
theorem HandleInv.closed {s t : State} {busId : Nat} (h : HandleInv s)
    (htrace : t.trace = s.trace ++ [.busClose busId]) (hs : s.busOpen = true)
    (ht : t.busOpen = false) : HandleInv t := by
  unfold HandleInv at h ⊢
  rw [hs] at h
  simp [htrace, ht, h, Event.isBusOpen, Event.isBusClose]

/-- A poll leaves the balance. -/
theorem HandleInv.polled {s t : State} (h : HandleInv s) (htrace : t.trace = s.trace ++ polledEvents s)
    (hbus : t.busOpen = s.busOpen) : HandleInv t :=
  h.append htrace hbus (countP_polledEvents rfl s) (countP_polledEvents rfl s)

/-- Every operation keeps the balance: START, RBT.CLOSE and RBT.OPEN move the handle with their event. -/
theorem effect_keeps_handleInv {i : Instr} {s t : State} (hruns : Runs i s) (h : Effect i s t)
    (hseq : SequencerInv s) (hinv : HandleInv s) : HandleInv t := by
  induction h with
  | pktRdPacket hbus hpos hop ih => exact ih (runs_packetOp hruns) hseq hinv
  | cfgWr hphase => exact hinv.append (es := []) (by simp) (by simp) rfl rfl
  | start hphase =>
    obtain ⟨-, -, -, hclosed⟩ := hseq.row hphase
    exact hinv.opened rfl hclosed rfl
  | rbtOpen =>
    obtain ⟨-, -, -, hclosed⟩ := hseq.row hruns
    exact hinv.opened rfl hclosed rfl
  | rbtClose =>
    obtain ⟨-, -, -, hopen⟩ := hseq.row hruns
    exact hinv.closed rfl hopen rfl
  | reset => rfl
  | @attBegin s => exact hinv.polled (pollCommand_trace _) (pollCommand_busOpen _)
  | pubPoll | cmdPoll => exact hinv.polled (pollCommand_trace _) (pollCommand_busOpen _)
  | @pktAccept s hpos =>
    have hbus : (packetAccepted s).busOpen = s.busOpen := by rw [packetAccepted_eq hpos]
    obtain ⟨htrace, -⟩ | ⟨htrace, -⟩ := packetAccepted_records hpos
    · exact hinv.append (htrace.trans (List.append_nil _).symm) hbus rfl rfl
    · exact hinv.polled htrace hbus
  | rbtReboot | pubRaw | pubPreview => exact hinv.append rfl rfl rfl rfl
  | cfgWrIgnored | cfgRd | startIgnored | pktRdSilent | pktRdFatal | pktSegok | pktSegbad | pktDesync
  | pktFatal | synBackoff | synBackoffThreshold | rbtWarm | rsmStoreLr | rsmStoreHr | rsmStoreHr4
  | rsmInvalid | rsmExtract | rngHold | rngScan | rngScale | palMap => exact hinv

/-- Settles O51: an open is emitted only where the handle is closed and a close where it is open. -/
theorem stepKeepsHandleBalance : Obligations.StepKeepsHandleBalance := by
  unfold Obligations.StepKeepsHandleBalance
  intro s t hseq hhandle hstep
  have hkept : SequencerInv t ∧ HandleInv t :=
    step_keeps (I := fun s => SequencerInv s ∧ HandleInv s) (fun _ h => h)
      (fun hruns h hinv => ⟨effect_keeps_sequencerInv hruns h hinv.1,
        effect_keeps_handleInv hruns h hinv.1 hinv.2⟩) ⟨hseq, hhandle⟩ hstep
  exact hkept.2

/-! ### The calibration count (44_publisher.md R140) -/

/-- Records that grow by as many calibrations as commands keep the count. -/
theorem CalibrationInv.append {s t : State} {es : List Event} {cs : List Call} (h : CalibrationInv s)
    (hparams : t.params = s.params) (htrace : t.trace = s.trace ++ es) (hcalls : t.calls = s.calls ++ cs)
    (hcount : es.count .sensorCalibrate = cs.countP (Call.isCommand s.params.cmdMaxLen)) :
    CalibrationInv t := by
  rw [CalibrationInv, hparams, htrace, hcalls, List.count_append, List.countP_append, hcount, h]

/-- A poll adds one of each, or none. -/
theorem CalibrationInv.polled {s t : State} (h : CalibrationInv s) (hparams : t.params = s.params)
    (htrace : t.trace = s.trace ++ polledEvents s)
    (hcalls : t.calls = s.calls ++ [.netPoll (pollAnswer s)]) : CalibrationInv t :=
  h.append hparams htrace hcalls (count_polledEvents s)

/-- A recorded bus read is no poll. -/
theorem CalibrationInv.packetStored {s : State} (h : CalibrationInv s) (p : Packet)
    (rest : List BusAnswer) : CalibrationInv (packetStored s p rest) :=
  h.append (es := []) rfl (List.append_nil _).symm rfl rfl

/-- Every operation keeps the count: each poll is recorded with what it emits. -/
theorem effect_keeps_calibrationInv {i : Instr} {s t : State} (hruns : Runs i s) (h : Effect i s t)
    (hinv : CalibrationInv s) : CalibrationInv t := by
  induction h with
  | @pktRdPacket s p rest t hbus hpos hop ih => exact ih (runs_packetOp hruns) (hinv.packetStored p rest)
  | cfgWr hphase => exact hinv.append (es := []) (cs := []) (by simp) (by simp) (by simp) rfl
  | reset => rfl
  | attBegin | pubPoll | cmdPoll =>
    exact hinv.polled (pollCommand_params _) (pollCommand_trace _) (pollCommand_calls _)
  | @pktAccept s hpos =>
    have hparams : (packetAccepted s).params = s.params := by rw [packetAccepted_eq hpos]
    obtain ⟨htrace, hcalls⟩ | ⟨htrace, hcalls⟩ := packetAccepted_records hpos
    · exact hinv.append hparams (htrace.trans (List.append_nil _).symm)
        (hcalls.trans (List.append_nil _).symm) rfl
    · exact hinv.polled hparams htrace hcalls
  | pktRdFatal | synBackoff | synBackoffThreshold | rbtWarm =>
    exact hinv.append (es := []) rfl (List.append_nil _).symm rfl rfl
  | start | rbtClose | rbtReboot | rbtOpen | pubRaw | pubPreview =>
    exact hinv.append (cs := []) rfl rfl (List.append_nil _).symm rfl
  | cfgWrIgnored | cfgRd | startIgnored | pktRdSilent | pktSegok | pktSegbad | pktDesync | pktFatal
  | rsmStoreLr | rsmStoreHr | rsmStoreHr4 | rsmInvalid | rsmExtract | rngHold | rngScan | rngScale
  | palMap => exact hinv

/-- Settles O52: only a poll adds a calibration or a command, and it adds both or none. -/
theorem stepKeepsCalibrationCount : Obligations.StepKeepsCalibrationCount := by
  unfold Obligations.StepKeepsCalibrationCount
  exact fun s t => step_keeps (fun _ h => h) effect_keeps_calibrationInv

/-! ### One preview for each raw frame (44_publisher.md R134) -/

/-- Outside PUB_PREVIEW the invariant is equality of the two counts, which other events keep. -/
theorem PublishInv.append {s t : State} {es : List Event} (h : PublishInv s)
    (htrace : t.trace = s.trace ++ es) (hs : s.phase ≠ .pubPreview) (ht : t.phase ≠ .pubPreview)
    (hraw : es.countP Event.isNetSend = 0) (hpreview : es.countP Event.isPreviewFrame = 0) :
    PublishInv t := by
  unfold PublishInv at h ⊢
  rw [if_neg hs] at h
  rw [if_neg ht, htrace, List.countP_append, List.countP_append, hraw, hpreview]
  exact h

theorem PublishInv.polled {s t : State} (h : PublishInv s) (htrace : t.trace = s.trace ++ polledEvents s)
    (hs : s.phase ≠ .pubPreview) (ht : t.phase ≠ .pubPreview) : PublishInv t :=
  h.append htrace hs ht (countP_polledEvents rfl s) (countP_polledEvents rfl s)

/-- The raw frame goes first (92_eei_decisions.md D18). -/
theorem PublishInv.rawSent {s t : State} {payload : List Byte} (h : PublishInv s)
    (htrace : t.trace = s.trace ++ [.netSend payload]) (hs : s.phase = .pubRaw)
    (ht : t.phase = .pubPreview) : PublishInv t := by
  unfold PublishInv at h ⊢
  rw [if_neg (by rw [hs]; decide)] at h
  simp [ht, htrace, h, Event.isNetSend, Event.isPreviewFrame]

/-- The preview follows its raw frame. -/
theorem PublishInv.previewSent {s t : State} {w h : Nat} {pixels : List Pixel} (hinv : PublishInv s)
    (htrace : t.trace = s.trace ++ [.previewFrame w h pixels]) (hs : s.phase = .pubPreview)
    (ht : t.phase = .pubPoll) : PublishInv t := by
  unfold PublishInv at hinv ⊢
  rw [if_pos hs] at hinv
  simp [ht, htrace, hinv, Event.isNetSend, Event.isPreviewFrame]

/-- Every operation keeps the count of frames: PUB.RAW and PUB.PREVIEW follow each other. -/
theorem effect_keeps_publishInv {i : Instr} {s t : State} (hruns : Runs i s) (h : Effect i s t)
    (hinv : PublishInv s) : PublishInv t := by
  induction h with
  | pktRdPacket hbus hpos hop ih => exact ih (runs_packetOp hruns) hinv
  | cfgWrIgnored | cfgRd | startIgnored | pktRdSilent | rngHold | rngScan => exact hinv
  | cmdPoll => exact hruns.elim
  | cfgWr hphase =>
    have hs : ∀ {t : State}, t.phase = .idle → t.phase ≠ .pubPreview := fun h => by rw [h]; decide
    exact hinv.append (es := []) (by simp) (hs hphase) (hs ((writeReg_phase _ _ _).trans hphase)) rfl rfl
  | start hphase => exact hinv.append rfl (by rw [hphase]; decide) nofun rfl rfl
  | reset => rfl
  | attBegin | pubPoll =>
    exact hinv.polled (pollCommand_trace _) (hruns.phase_ne rfl (by decide)) nofun
  | @pktAccept s hpos =>
    have hs : s.phase ≠ .pubPreview := hruns.phase_ne rfl (by decide)
    have ht : (packetAccepted s).phase ≠ .pubPreview := by
      rw [packetAccepted_phase hpos]
      split <;> decide
    obtain ⟨htrace, -⟩ | ⟨htrace, -⟩ := packetAccepted_records hpos
    · exact hinv.append (htrace.trans (List.append_nil _).symm) hs ht rfl rfl
    · exact hinv.polled htrace hs ht
  | pubRaw => exact hinv.rawSent rfl hruns rfl
  | pubPreview => exact hinv.previewSent rfl hruns rfl
  | rbtClose | rbtReboot | rbtOpen =>
    exact hinv.append rfl (hruns.phase_ne rfl (by decide)) nofun rfl rfl
  | pktRdFatal | pktSegok | pktSegbad | pktDesync | pktFatal | synBackoff | synBackoffThreshold
  | rbtWarm | rsmStoreLr | rsmStoreHr | rsmStoreHr4 | rsmInvalid | rsmExtract | rngScale | palMap =>
    exact hinv.append (es := []) (List.append_nil _).symm (hruns.phase_ne rfl (by decide)) nofun rfl rfl

/-- Settles O53: PUB_PREVIEW is entered by sending a raw frame and left by sending its preview. -/
theorem stepKeepsOnePreviewPerRawFrame : Obligations.StepKeepsOnePreviewPerRawFrame := by
  unfold Obligations.StepKeepsOnePreviewPerRawFrame
  exact fun s t => step_keeps (fun _ h => h) effect_keeps_publishInv

end Sys2Proof.Machine

namespace Sys2Proof.Machine

/-! ### Selectors and operations (30_encoding.md R62, R73) -/

/-- A high-res header written for position 20 selects by its segment field. -/
theorem decodePacket_segment_header (seg : BitVec 4) :
    decodePacket (some (header (BitVec.ofNat 8 (16 * seg.toNat)) 20 0 0)) 20 1 =
      if segValid seg then .segok seg else .segbad seg := by
  have hfield : segField (header (BitVec.ofNat 8 (16 * seg.toNat)) 20 0 0) = seg := by
    have hseg := seg.isLt
    rw [segField_header]
    apply BitVec.eq_of_toNat_eq
    rw [BitVec.toNat_ofNat, BitVec.toNat_ofNat]
    omega
  simp only [decodePacket, hfield, seqField_header]
  rfl

/-- The decoder reads a well-formed operation back from its selector. -/
theorem decode_encode {i : Instr} (h : i.wf = true) : decode (encode i) = .ok i := by
  cases i with
  | pktSegok seg =>
    have hvalid : segValid seg = true := h
    rw [encode, decode, decodePacket_segment_header, if_pos hvalid]
    rfl
  | pktSegbad seg =>
    have hinvalid : (!segValid seg) = true := h
    rw [encode, decode, decodePacket_segment_header, if_neg (by simpa using hinvalid)]
    rfl
  | _ => rfl

/-- The ordered test carries a valid identifier in PKT.SEGOK only (30_encoding.md R62). -/
theorem decodePacket_instr_wf (answer : Option (BitVec 32)) (pos : BitVec 6) (v : BitVec 1) :
    (decodePacket answer pos v).instr.wf = true := by
  cases answer with
  | none => rfl
  | some h =>
    obtain ⟨-, hop⟩ | ⟨-, -, -, hvalid, hop⟩ | ⟨-, -, -, hinvalid, hop⟩ | ⟨-, -, hop⟩ :=
      decodePacket_cases h pos v
    · rw [hop]; rfl
    · rw [hop]; exact hvalid
    · rw [hop]; exact congrArg not hinvalid
    · rw [hop]; rfl

theorem decodePhase_wf {code : BitVec 4} {variant : BitVec 1} {segId : BitVec 4} {auto : BitVec 2}
    {i : Instr} (h : decodePhase code variant segId auto = .ok i) : i.wf = true := by
  unfold decodePhase at h
  repeat' split at h
  all_goals cases h <;> rfl

theorem decodeHost_wf (ha : BitVec 2) (num : BitVec 4) (value : BitVec 32) (netOk : Bool) :
    (decodeHost ha num value netOk).wf = true := by
  unfold decodeHost
  split <;> rfl

/-- Every row format selects well-formed operations only. -/
theorem wf_of_decode {sel : Selector} {i : Instr} (h : decode sel = .ok i) : i.wf = true := by
  cases sel with
  | host ha num value netOk =>
    cases h
    exact decodeHost_wf ha num value netOk
  | phase code variant segId auto half =>
    cases half with
    | first => exact decodePhase_wf h
    | second =>
      rw [decode] at h
      split at h <;> cases h
      rfl
  | packet answer pos variant =>
    cases h
    exact decodePacket_instr_wf answer pos variant
  | window bits =>
    rw [decode] at h
    split at h <;> cases h
    rfl

/-- Settles O57: SEG is read back from its nibble, the other operations have selectors without operands
to extract, and only the ordered test hands an identifier on. -/
theorem decodeInvertsEncode : Obligations.DecodeInvertsEncode := by
  unfold Obligations.DecodeInvertsEncode
  exact ⟨fun _ => decode_encode, fun _ _ => wf_of_decode⟩

/-! ### Progress (60_exceptions.md R161; log entry 8) -/

theorem exec_hostAction_completes (a : HostAction) (s : State) : ∃ t, exec a.instr s = .next t := by
  cases a with
  | cfgWr num value =>
    by_cases hphase : s.phase = .idle
    · exact ⟨_, exec_cfgWr_in_idle hphase⟩
    · exact ⟨_, exec_cfgWr_outside_idle hphase⟩
  | start netOk =>
    by_cases hphase : s.phase = .idle
    · exact ⟨_, exec_start_in_idle hphase⟩
    · exact ⟨_, exec_start_outside_idle hphase⟩
  | cfgRd num => exact ⟨_, rfl⟩
  | reset => exact ⟨_, rfl⟩

/-- With `pos` and `resets` in range a packet read completes, or waits. -/
theorem exec_pktRd_completes {s : State} (hpos : s.pos.toNat < 60) (hresets : s.resets.toNat < 1023) :
    ∃ t, exec .pktRd s = .next t := by
  match hbus : s.busIn with
  | [] => exact ⟨s, exec_pktRd_silent hbus⟩
  | .fatal :: rest => exact ⟨_, exec_pktRd_fatal hbus⟩
  | .packet p :: rest =>
    rw [exec_pktRd_packet hbus hpos]
    exact exec_packetOp_completes _ hpos hresets

theorem exec_synBackoff_completes (s : State) : ∃ t, exec .synBackoff s = .next t := by
  by_cases hresets : s.resets.toNat = 750
  · exact ⟨_, exec_synBackoff_threshold hresets⟩
  · exact ⟨_, exec_synBackoff_below hresets⟩

/-- Every select but the reserved one names a palette (10_state.md R23). -/
theorem selectPalette_of_ne_three (params : Params) {sel : BitVec 2} (h : sel ≠ 3) :
    ∃ p, selectPalette params sel = some p := by
  obtain ⟨n, hn⟩ := sel
  match n, hn, h with
  | 0, _, _ | 1, _, _ | 2, _, _ => exact ⟨_, rfl⟩
  | 3, _, h => exact absurd rfl h

theorem exec_palMap_completes {s : State} (hpalette : s.cfgPalette ≠ 3) (hdiff : s.diff ≠ 0) :
    ∃ t, exec .palMap s = .next t := by
  obtain ⟨p, hp⟩ := selectPalette_of_ne_three s.params hpalette
  exact ⟨_, exec_palMap_of_palette hp hdiff⟩

/-- Every operation the phase selects completes within the invariants. -/
theorem coreStep_completes {s : State} (hseq : SequencerInv s) (hrange : RangeInv s)
    (hhalt : s.phase ≠ .halt) : ∃ t, coreStep s = .next t := by
  rw [coreStep_eq]
  cases hphase : s.phase with
  | halt => exact absurd hphase hhalt
  | seek =>
    obtain ⟨hpos, hresets, -⟩ := hseq.row hphase
    exact exec_pktRd_completes hpos (by omega)
  | backoff => exact exec_synBackoff_completes s
  | reasm =>
    dsimp only
    split
    · exact ⟨_, rfl⟩
    · split
      · exact ⟨_, rfl⟩
      · next hvalid =>
        split
        · exact ⟨_, rfl⟩
        · exact ⟨_, exec_rsmStoreHr_of_valid ((segValid_iff _).1 (Bool.not_eq_false _ ▸ hvalid))⟩
  | range =>
    dsimp only
    split <;> exact ⟨_, exec_rngScale _⟩
  | map =>
    obtain ⟨hdiff, hpalette, -⟩ := hrange
    exact exec_palMap_completes hpalette hdiff
  | _ => exact ⟨_, rfl⟩

/-- Settles O54: host moves always complete, and so does the core's operation outside HALT. -/
theorem onlyHaltStopsTheMachine : Obligations.OnlyHaltStopsTheMachine := by
  unfold Obligations.OnlyHaltStopsTheMachine
  intro s hseq hrange
  rw [step_eq]
  cases hmove : hostMove s with
  | some a => exact .inl (exec_hostAction_completes a _)
  | none =>
    by_cases hhalt : s.phase = .halt
    · exact .inr ⟨hhalt, rfl, coreStep_halt hhalt⟩
    · exact .inl (coreStep_completes (s := takeHost s) hseq hrange hhalt)

end Sys2Proof.Machine

namespace Sys2Proof.Machine

/-! ### Operations that do not touch `pktbuf` (20_memory.md R41) -/

/-- The operations that read or write `pktbuf`: a read with a packet, the three stores and RESET. -/
def touchesPktbuf : Instr → Bool
  | .pktRd | .rsmStoreLr | .rsmStoreHr | .rsmStoreHr4 | .reset => true
  | _ => false

theorem effect_keeps_pktbuf {i : Instr} {s t : State} (h : Effect i s t)
    (hi : touchesPktbuf i = false) : t.pktbuf = s.pktbuf := by
  cases h with
  | pktRdSilent | pktRdFatal | pktRdPacket | rsmStoreLr | rsmStoreHr | rsmStoreHr4 | reset => cases hi
  | cfgWr => rw [writeReg_eq]
  | attBegin | pubPoll | cmdPoll => exact pollCommand_pktbuf _
  | pktAccept hpos => rw [packetAccepted_eq hpos]
  | _ => rfl

/-- A state with another `pktbuf`. -/
def State.withPktbuf (s : State) (m : Mem Byte) : State := { s with pktbuf := m }

/-- Such an operation does the same whatever `pktbuf` holds, and hands it on. -/
theorem exec_with_pktbuf {i : Instr} {s t : State} (m : Mem Byte) (h : Effect i s t)
    (hi : touchesPktbuf i = false) :
    exec i (s.withPktbuf m) = .next (t.withPktbuf m) := by
  cases h with
  | pktRdSilent | pktRdFatal | pktRdPacket | rsmStoreLr | rsmStoreHr | rsmStoreHr4 | reset => cases hi
  | @cfgWr num value s hphase =>
    have hphase' : (s.withPktbuf m).phase = .idle := hphase
    rw [exec_cfgWr_in_idle hphase', writeReg_eq, writeReg_eq]
    rfl
  | cfgWrIgnored hphase => exact exec_cfgWr_outside_idle hphase
  | start hphase => exact exec_start_in_idle hphase
  | startIgnored hphase => exact exec_start_outside_idle hphase
  | attBegin | pubPoll | cmdPoll =>
    rw [pollCommand_eq]
    show Host.Outcome.next _ = _
    rw [pollCommand_eq]
    rfl
  | @pktAccept s hpos =>
    have hpos' : (s.withPktbuf m).pos.toNat < 60 := hpos
    refine (execPktAccept_eq (s.withPktbuf m) hpos').trans ?_
    rw [packetAccepted_eq hpos, packetAccepted_eq hpos']
    rfl
  | pktDesync hresets => exact exec_pktDesync_of_lt hresets
  | synBackoff hresets => exact exec_synBackoff_below hresets
  | synBackoffThreshold hresets => exact exec_synBackoff_threshold hresets
  | rngScale => exact exec_rngScale _
  | palMap hpalette hdiff => exact exec_palMap_of_palette hpalette hdiff
  | _ => rfl

/-! ### States that agree on the live part of `pktbuf` (10_state.md R29 a) -/

/-- Two `pktbuf`s that hold the same first `n` packets. -/
def AgreeBelow (n : Nat) (m m' : Mem Byte) : Prop := ∀ b, b < 164 * n → readAt 0 m' b = readAt 0 m b

/-- States that agree on the packets the phase and the position of the pass count as acquired differ
in stale bytes only. -/
theorem sameButStale_of_agreeBelow {t : State} {m' : Mem Byte} {n : Nat}
    (hwf : memWf 0 9840 t.pktbuf = true) (hwf' : memWf 0 9840 m' = true)
    (hagree : AgreeBelow n t.pktbuf m')
    (hpos : t.phase = .seek ∨ t.phase = .reasm → t.pos.toNat ≤ n) :
    SameButStalePackets t (t.withPktbuf m') := by
  refine ⟨rfl, ⟨hwf, hwf'⟩, fun hseek b hb => hagree b ?_, fun hreasm h60 b hb => hagree b ?_⟩
  · have hle := hpos (.inl hseek)
    omega
  · have hle := hpos (.inr hreasm)
    omega

theorem sameButStale_refl {t : State} (hwf : memWf 0 9840 t.pktbuf = true) : SameButStalePackets t t :=
  ⟨rfl, ⟨hwf, hwf⟩, fun _ _ _ => rfl, fun _ _ _ _ => rfl⟩

/-- An index that no entry lists reads as the default. -/
theorem readAt_eq_default_of_ne {α : Type} (d : α) (m : Mem α) (x : Nat) (h : ∀ c ∈ m, c.1 ≠ x) :
    readAt d m x = d := by
  induction m with
  | nil => rfl
  | cons c rest ih =>
    rw [readAt_cons, if_neg (h c List.mem_cons_self), ih fun e he => h e (List.mem_cons_of_mem _ he)]

/-- A canonical memory of `n` places reads as the default from `n` on. -/
theorem readAt_of_memWf_of_le {α : Type} [DecidableEq α] {d : α} {n x : Nat} {m : Mem α}
    (h : memWf d n m = true) (hx : n ≤ x) : readAt d m x = d := by
  obtain ⟨-, hbound⟩ := (memWf_iff d n m).1 h
  refine readAt_eq_default_of_ne d m x fun c hc => ?_
  obtain ⟨hlt, -⟩ := hbound c hc
  omega

/-- Canonical `pktbuf`s that hold the same 60 packets are equal. -/
theorem eq_of_agreeBelow_sixty {m m' : Mem Byte} (hwf : memWf 0 9840 m = true)
    (hwf' : memWf 0 9840 m' = true) (h : AgreeBelow 60 m m') : m' = m := by
  refine mem_ext_of_readAt 0 9840 m' m hwf' hwf fun x => ?_
  obtain hlt | hge := Nat.lt_or_ge x 9840
  · exact h x hlt
  · rw [readAt_of_memWf_of_le hwf hge, readAt_of_memWf_of_le hwf' hge]

/-- Storing the same packet in both makes one more packet agree (40_synchronizer.md R82). -/
theorem agreeBelow_packetStored {s : State} {m' : Mem Byte} (p : Packet) (rest : List BusAnswer)
    (h : AgreeBelow s.pos.toNat s.pktbuf m') :
    AgreeBelow (s.pos.toNat + 1) (packetStored s p rest).pktbuf
      (packetStored (s.withPktbuf m') p rest).pktbuf := by
  intro b hb
  rw [readAt_packetStored, readAt_packetStored]
  show (if _ then _ else readAt 0 m' b) = _
  have hpos : (s.withPktbuf m').pos = s.pos := rfl
  rw [hpos]
  split
  · rfl
  · exact h b (by omega)

theorem packetOp_not_touchesPktbuf (op : PacketOp) : touchesPktbuf op.instr = false := by
  cases op <;> rfl

/-- A packet operation moves the position at most one on. -/
theorem effect_packetOp_pos_le {op : PacketOp} {s t : State} (hruns : Runs op.instr s)
    (h : Effect op.instr s t) (hpos : s.pos.toNat < 60) : t.pos.toNat ≤ s.pos.toNat + 1 := by
  cases op with
  | accept =>
    cases h
    rw [packetAccepted_eq hpos]
    exact Nat.le_of_eq (ofNat_succ_pos_toNat hpos)
  | segok seg =>
    obtain ⟨-, -, -, h20, -⟩ := hruns
    cases h
    show 21 ≤ _
    omega
  | segbad seg | fatal =>
    cases h
    exact Nat.le_succ _
  | desync =>
    cases h
    exact Nat.zero_le _

/-- A read of the same packet in both leaves them alike up to stale bytes. -/
theorem exec_pktRd_stale {s t : State} {p : Packet} {rest : List BusAnswer} {m' : Mem Byte}
    (hphase : s.phase = .seek) (hbus : s.busIn = .packet p :: rest) (hpos : s.pos.toNat < 60)
    (hop : Effect (decodePacket (some (packetHeader p)) s.pos s.cfgVariant).instr
      (packetStored s p rest) t)
    (hwf : memWf 0 9840 s.pktbuf = true) (hwf' : memWf 0 9840 m' = true)
    (hagree : AgreeBelow s.pos.toNat s.pktbuf m') :
    ∃ t', exec .pktRd (s.withPktbuf m') = .next t' ∧ SameButStalePackets t t' := by
  have hsame := effect_keeps_pktbuf hop (packetOp_not_touchesPktbuf _)
  have hread : exec .pktRd (s.withPktbuf m') =
      exec (decodePacket (some (packetHeader p)) s.pos s.cfgVariant).instr
        ((packetStored s p rest).withPktbuf (packetStored (s.withPktbuf m') p rest).pktbuf) :=
    exec_pktRd_packet (s := s.withPktbuf m') hbus hpos
  refine ⟨_, hread.trans (exec_with_pktbuf _ hop (packetOp_not_touchesPktbuf _)), ?_⟩
  refine sameButStale_of_agreeBelow (n := s.pos.toNat + 1) ?_ ?_ ?_ fun _ => ?_
  · rw [hsame]
    exact memWf_packetStored p rest hpos hwf
  · exact memWf_packetStored (s := (s.withPktbuf m')) p rest hpos hwf'
  · rw [hsame]
    exact agreeBelow_packetStored p rest hagree
  · exact effect_packetOp_pos_le (s := packetStored s p rest) (runs_packetOp hphase) hop hpos

/-- In REASM with a whole pass acquired nothing is stale. -/
theorem SameButStalePackets.eq_of_whole_pass {s s' : State} (h : SameButStalePackets s s')
    (hphase : s.phase = .reasm) (hpos : s.pos.toNat = 60) : s' = s := by
  obtain ⟨heq, ⟨hwf, hwf'⟩, -, hwhole⟩ := h
  rw [heq, eq_of_agreeBelow_sixty hwf hwf' (hwhole hphase hpos)]

/-- A store runs on a whole pass, where related states are equal. -/
theorem exec_store_stale {i : Instr} {s s' t : State} (hrel : SameButStalePackets s s')
    (hexec : exec i s = .next t) (hphase : s.phase = .reasm) (hpos : s.pos.toNat = 60)
    (hkept : t.pktbuf = s.pktbuf) : ∃ t', exec i s' = .next t' ∧ SameButStalePackets t t' := by
  rw [hrel.eq_of_whole_pass hphase hpos]
  obtain ⟨-, ⟨hwf, -⟩, -⟩ := hrel
  exact ⟨t, hexec, sameButStale_refl (hkept ▸ hwf)⟩

/-- The relation in terms of the other `pktbuf`. -/
theorem sameButStale_iff {s s' : State} : SameButStalePackets s s' ↔
    ∃ m', s' = s.withPktbuf m' ∧ SameButStalePackets s (s.withPktbuf m') := by
  constructor
  · intro h
    exact ⟨s'.pktbuf, h.1, h.1 ▸ h⟩
  · rintro ⟨m', rfl, h⟩
    exact h

/-- An operation that does not touch `pktbuf` and leaves no pass under way but a fresh one. -/
theorem exec_stale_of_fresh {i : Instr} {s t : State} {m' : Mem Byte} (heffect : Effect i s t)
    (hi : touchesPktbuf i = false) (hrel : SameButStalePackets s (s.withPktbuf m'))
    (hfresh : t.phase = .seek ∨ t.phase = .reasm → t.pos = 0) :
    ∃ t', exec i (s.withPktbuf m') = .next t' ∧ SameButStalePackets t t' := by
  obtain ⟨-, ⟨hwf, hwf'⟩, -⟩ := hrel
  rw [← effect_keeps_pktbuf heffect hi] at hwf
  refine ⟨_, exec_with_pktbuf m' heffect hi,
    sameButStale_of_agreeBelow (n := 0) hwf hwf' (fun b hb => ?_) fun hphase => ?_⟩
  · exact absurd hb (Nat.not_lt_zero b)
  · rw [hfresh hphase]
    exact Nat.le_refl 0

/-- One operation on two related states. A packet operation by itself is left out: the packet it
accepts would have to be stored in both, as PKT.RD does. -/
theorem exec_stale {i : Instr} {s s' t : State} (hseq : SequencerInv s) (hruns : Runs i s)
    (hi : ∀ op : PacketOp, i ≠ op.instr) (hrel : SameButStalePackets s s')
    (hexec : exec i s = .next t) : ∃ t', exec i s' = .next t' ∧ SameButStalePackets t t' := by
  obtain ⟨m', rfl, hrel⟩ := sameButStale_iff.1 hrel
  have heffect := effect_of_exec hexec
  cases heffect with
  | pktAccept => exact absurd rfl (hi .accept)
  | @pktSegok seg => exact absurd rfl (hi (.segok seg))
  | @pktSegbad seg => exact absurd rfl (hi (.segbad seg))
  | pktDesync => exact absurd rfl (hi .desync)
  | pktFatal => exact absurd rfl (hi .fatal)
  | cmdPoll => exact hruns.elim
  | cfgWrIgnored hphase => exact ⟨_, exec_cfgWr_outside_idle hphase, hrel⟩
  | startIgnored hphase => exact ⟨_, exec_start_outside_idle hphase, hrel⟩
  | cfgRd => exact ⟨_, exec_with_pktbuf m' .cfgRd rfl, rfl, hrel.2⟩
  | pktRdSilent hbus => exact ⟨_, exec_pktRd_silent hbus, hrel⟩
  | rngHold => exact ⟨_, rfl, hrel⟩
  | reset => exact ⟨_, hexec, sameButStale_refl rfl⟩
  | pktRdFatal hbus =>
    obtain ⟨-, hwf, -⟩ := hrel
    exact ⟨_, exec_pktRd_fatal hbus, rfl, hwf, nofun, nofun⟩
  | pktRdPacket hbus hpos hop =>
    obtain ⟨-, ⟨hwf, hwf'⟩, hseek, -⟩ := hrel
    exact exec_pktRd_stale hruns hbus hpos hop hwf hwf' (hseek hruns)
  | rsmStoreLr =>
    obtain ⟨hphase, hvariant⟩ := hruns
    exact exec_store_stale hrel hexec hphase (hseq.pos_of_low_res hphase hvariant) rfl
  | rsmStoreHr =>
    obtain ⟨hphase, hvariant, hvalid⟩ := hruns
    exact exec_store_stale hrel hexec hphase (hseq.pos_of_segValid hphase hvariant hvalid) rfl
  | rsmStoreHr4 =>
    obtain ⟨hphase, hvariant, hseg⟩ := hruns
    exact exec_store_stale hrel hexec hphase
      (hseq.pos_of_segValid hphase hvariant (by rw [hseg]; rfl)) rfl
  | attBegin =>
    refine exec_stale_of_fresh .attBegin rfl hrel fun _ => ?_
    rw [pollCommand_eq]
    rfl
  | synBackoff hresets =>
    obtain ⟨hpos, -⟩ := hseq.row hruns
    exact exec_stale_of_fresh (.synBackoff hresets) rfl hrel fun _ => hpos
  | rbtOpen =>
    obtain ⟨hpos, -⟩ := hseq.row hruns
    exact exec_stale_of_fresh .rbtOpen rfl hrel fun _ => hpos
  | cfgWr hphase =>
    refine exec_stale_of_fresh (.cfgWr hphase) rfl hrel ?_
    rw [writeReg_phase, hphase]
    exact fun h => h.elim nofun nofun
  | rngScan =>
    have hphase : s.phase = .range := hruns
    refine exec_stale_of_fresh .rngScan rfl hrel fun h => ?_
    obtain h | h := h <;> cases hphase.symm.trans h
  | start | synBackoffThreshold | rbtClose | rbtReboot | rbtWarm | rsmInvalid | rsmExtract | rngScale
  | palMap | pubRaw | pubPreview | pubPoll =>
    exact exec_stale_of_fresh (effect_of_exec hexec) rfl hrel fun h => h.elim nofun nofun

/-! ### The step on related states -/

theorem hostAction_ne_packetOp (a : HostAction) (op : PacketOp) : a.instr ≠ op.instr := by
  cases a <;> cases op <;> nofun

/-- No phase selects a packet operation; PKT.RD does (30_encoding.md R62). -/
theorem decodePhase_ne_packetOp {code : BitVec 4} {variant : BitVec 1} {segId : BitVec 4}
    {auto : BitVec 2} {i : Instr} (h : decodePhase code variant segId auto = .ok i) (op : PacketOp) :
    i ≠ op.instr := by
  unfold decodePhase at h
  repeat' split at h
  all_goals cases h <;> cases op <;> nofun

/-- Related states select the same operation. -/
theorem SameButStalePackets.phaseSelector_eq {s s' : State} (h : SameButStalePackets s s') (half : Half) :
    phaseSelector s' half = phaseSelector s half := by
  obtain ⟨heq, -⟩ := h
  rw [heq]
  rfl

theorem SameButStalePackets.phase_eq {s s' : State} (h : SameButStalePackets s s') :
    s'.phase = s.phase := by
  obtain ⟨heq, -⟩ := h
  rw [heq]

/-- A core step on two related states. -/
theorem coreStep_stale {s s' t : State} (hseq : SequencerInv s) (hrel : SameButStalePackets s s')
    (hstep : coreStep s = .next t) : ∃ t', coreStep s' = .next t' ∧ SameButStalePackets t t' := by
  have hphase' := hrel.phase_eq
  obtain ⟨hidle, hcore⟩ | ⟨-, hcore⟩ | ⟨i, hi, hrun⟩ := coreStep_cases s
  · cases hcore.symm.trans hstep
    exact ⟨s', coreStep_idle (hphase'.trans hidle), hrel⟩
  · cases hcore.symm.trans hstep
  have hi' : decode (phaseSelector s' .first) = .ok i := by rw [hrel.phaseSelector_eq, hi]
  have hruns := runs_of_decode hi
  have hne := decodePhase_ne_packetOp hi
  obtain ⟨hphase, hcore⟩ | ⟨hphase, hfirst, hcore⟩ := hrun
  · rw [coreStep_of_ne_range (hphase' ▸ hphase) hi']
    exact exec_stale hseq hruns hne hrel (hcore.symm.trans hstep)
  · obtain ⟨u, hu, ht⟩ := andThen_eq_next.1 (hcore.symm.trans hstep)
    obtain ⟨u', hu', hrelu⟩ := exec_stale hseq hruns hne hrel hu
    have hscale : Runs .rngScale u := by
      have heffect := effect_of_exec hu
      obtain rfl | rfl := hfirst
      · exact (effect_firstHalf_frame (.inl heffect)).1.trans hphase
      · exact (effect_firstHalf_frame (.inr heffect)).1.trans hphase
    obtain ⟨t', ht', hrelt⟩ := exec_stale (effect_keeps_sequencerInv hruns (effect_of_exec hu) hseq)
      hscale (fun op => by cases op <;> nofun) hrelu ht
    refine ⟨t', ?_, hrelt⟩
    rw [coreStep_of_range (hphase'.trans hphase) hi']
    exact andThen_eq_next.2 ⟨u', hu', ht'⟩

theorem SameButStalePackets.takeHost {s s' : State} (h : SameButStalePackets s s') :
    SameButStalePackets (takeHost s) (takeHost s') := by
  obtain ⟨heq, hothers⟩ := h
  refine ⟨?_, hothers⟩
  rw [heq]
  rfl

/-- Settles O56: every operation but a read and a store passes `pktbuf` by, a read makes one more
packet agree, and a store runs only where no byte is stale. -/
theorem stalePacketsAreNeverObserved : Obligations.StalePacketsAreNeverObserved := by
  unfold Obligations.StalePacketsAreNeverObserved
  intro s s' t hseq hrel hstep
  have hmove : hostMove s' = hostMove s := by
    obtain ⟨heq, -⟩ := hrel
    rw [heq]
    rfl
  rw [step_eq, hmove]
  obtain ⟨a, ha, hexec⟩ | ⟨hnone, hcore⟩ := step_next_cases hstep
  · rw [ha]
    exact exec_stale (s := takeHost s) hseq (runs_hostAction a _) (hostAction_ne_packetOp a) hrel.takeHost
      hexec
  · rw [hnone]
    exact coreStep_stale (s := takeHost s) hseq hrel.takeHost hcore

end Sys2Proof.Machine

namespace Sys2Proof.Machine

/-! ### Writers of the memories (20_memory.md R40) -/

/-- What a packet operation can change: the phase, the pass's registers, the count and the records. -/
theorem effect_packetOp_frame {op : PacketOp} {s t : State} (h : Effect op.instr s t) :
    t = { s with
      phase := t.phase, pos := t.pos, resets := t.resets, segId := t.segId, pollIn := t.pollIn
      trace := t.trace, causes := t.causes, calls := t.calls } := by
  cases op with
  | accept =>
    cases h with
    | pktAccept hpos => rw [packetAccepted_eq hpos]
  | segok seg | segbad seg | desync | fatal =>
    cases h
    rfl

/-- `t` differs from `s` at most in what PKT.RD can write: the phase, the pass's registers, the count,
the inputs it consumes, `pktbuf` and the records (40_synchronizer.md R80, R82). -/
def AcquisitionFrame (s t : State) : Prop :=
  t = { s with
    phase := t.phase, pos := t.pos, resets := t.resets, segId := t.segId, pollIn := t.pollIn
    trace := t.trace, causes := t.causes, calls := t.calls, busIn := t.busIn, pktbuf := t.pktbuf }

theorem AcquisitionFrame.trans {s t u : State} (hst : AcquisitionFrame s t) (htu : AcquisitionFrame t u) :
    AcquisitionFrame s u := by
  refine Eq.trans htu ?_
  rw [show t = _ from hst]

theorem effect_pktRd_frame {s t : State} (h : Effect .pktRd s t) : AcquisitionFrame s t := by
  cases h with
  | pktRdSilent | pktRdFatal => rfl
  | pktRdPacket hbus hpos hop =>
    rw [AcquisitionFrame, effect_packetOp_frame hop]
    rfl

/-- The statement of `Obligations.OnlyTheirWritersChangeMemories` on effects. -/
theorem effect_memories_frame {i : Instr} {s t : State} (h : Effect i s t) :
    (i ∉ [.pktRd, .reset] → t.pktbuf = s.pktbuf) ∧
    (i ∉ [.rsmStoreLr, .rsmStoreHr, .rsmStoreHr4, .reset] → t.shelf = s.shelf) ∧
    (i ∉ [.rsmExtract, .reset] → t.grid = s.grid) ∧
    (i ∉ [.palMap, .reset] → t.preview = s.preview) := by
  cases h with
  | pktRdPacket hbus hpos hop =>
    rw [show t = _ from effect_pktRd_frame (.pktRdPacket hbus hpos hop)]
    simp
  | cfgWr hphase =>
    rw [writeReg_eq]
    simp
  | pktAccept hpos =>
    rw [packetAccepted_eq hpos]
    simp
  | _ => simp [started, rangeScaled]

/-- Settles O40: the effect of each operation, memory by memory. -/
theorem onlyTheirWritersChangeMemories : Obligations.OnlyTheirWritersChangeMemories := by
  unfold Obligations.OnlyTheirWritersChangeMemories
  intro i s t h
  obtain ⟨hpktbuf, hshelf, hgrid, hpreview⟩ := effect_memories_frame (effect_of_exec h)
  refine ⟨fun hi a => ?_, fun hi k b => ?_, fun hi n => ?_, fun hi n => ?_⟩
  · rw [hpktbuf hi]
  · rw [State.slot, hshelf hi, State.slot]
  · rw [hgrid hi]
  · rw [hpreview hi]

/-! ### Writers of the registers (10_state.md R13 to R21) -/

/-- Settles O41: the effect of each operation, counter by counter. -/
theorem onlyTheirWritersChangeCounters : Obligations.OnlyTheirWritersChangeCounters := by
  unfold Obligations.OnlyTheirWritersChangeCounters
  intro i s t h hreset hread
  cases effect_of_exec h with
  | reset => exact absurd rfl hreset
  | pktRdSilent | pktRdFatal | pktRdPacket => exact absurd rfl hread
  | cfgWr hphase =>
    rw [writeReg_eq]
    simp
  | pktAccept hpos =>
    rw [packetAccepted_eq hpos]
    simp
  | _ => simp [started, rangeScaled]

/-- Settles O42: the effect of each operation, register by register; PKT.RD by its frame. -/
theorem onlyTheirWritersChangeRangeFlagsConfig : Obligations.OnlyTheirWritersChangeRangeFlagsConfig := by
  unfold Obligations.OnlyTheirWritersChangeRangeFlagsConfig
  intro i s t h hreset
  cases effect_of_exec h with
  | reset => exact absurd rfl hreset
  | pktRdPacket hbus hpos hop =>
    rw [show t = _ from effect_pktRd_frame (.pktRdPacket hbus hpos hop)]
    simp
  | cfgWr hphase =>
    rw [writeReg_eq]
    simp
  | pktAccept hpos =>
    rw [packetAccepted_eq hpos]
    simp
  | _ => simp [started, rangeScaled]

/-! ### The parameters (20_memory.md R55) -/

theorem effect_keeps_params {i : Instr} {s t : State} (h : Effect i s t) : t.params = s.params := by
  cases h with
  | pktRdPacket hbus hpos hop => rw [show t = _ from effect_pktRd_frame (.pktRdPacket hbus hpos hop)]
  | cfgWr hphase => exact writeReg_params _ _ _
  | attBegin | pubPoll | cmdPoll => exact pollCommand_params _
  | pktAccept hpos => rw [packetAccepted_eq hpos]
  | _ => rfl

/-- Settles O44: no operation writes the parameters, so any value they have stays. -/
theorem parametersAreImmutable : Obligations.ParametersAreImmutable := by
  unfold Obligations.ParametersAreImmutable
  intro s t hstep
  exact step_keeps (I := fun u => u.params = s.params) (fun _ h => h)
    (fun _ h hparams => (effect_keeps_params h).trans hparams) rfl hstep

/-! ### The records grow (60_exceptions.md R163, 20_memory.md R53) -/

/-- A record that keeps what it has and takes at most one entry more. -/
def AppendsAtMostOne {α : Type} (xs ys : List α) : Prop := ∃ zs, ys = xs ++ zs ∧ zs.length ≤ 1

theorem AppendsAtMostOne.nothing {α : Type} (xs : List α) : AppendsAtMostOne xs xs :=
  ⟨[], (List.append_nil xs).symm, Nat.zero_le 1⟩

theorem AppendsAtMostOne.one {α : Type} (xs : List α) (x : α) : AppendsAtMostOne xs (xs ++ [x]) :=
  ⟨[x], rfl, Nat.le_refl 1⟩

/-- Both records of a state, the trace and the causes. -/
def RecordsAppend (s t : State) : Prop :=
  AppendsAtMostOne s.trace t.trace ∧ AppendsAtMostOne s.causes t.causes

theorem RecordsAppend.silent {s t : State} (htrace : t.trace = s.trace) (hcauses : t.causes = s.causes) :
    RecordsAppend s t := by
  rw [RecordsAppend, htrace, hcauses]
  exact ⟨.nothing _, .nothing _⟩

theorem RecordsAppend.polled {s t : State} (htrace : t.trace = s.trace ++ polledEvents s)
    (hcauses : t.causes = s.causes) : RecordsAppend s t := by
  rw [RecordsAppend, htrace, hcauses]
  exact ⟨⟨_, rfl, length_polledEvents_le s⟩, .nothing _⟩

/-- Every operation but RESET adds at most one entry to each record. -/
theorem effect_records_append {i : Instr} {s t : State} (h : Effect i s t) (hi : i ≠ .reset) :
    RecordsAppend s t := by
  induction h with
  | reset => exact absurd rfl hi
  | @pktRdPacket s p rest t hbus hpos hop ih =>
    refine ih ?_
    cases decodePacket (some (packetHeader p)) s.pos s.cfgVariant <;> nofun
  | cfgWr hphase => exact .silent (writeReg_trace _ _ _) (by rw [writeReg_eq])
  | attBegin | pubPoll | cmdPoll => exact .polled (pollCommand_trace _) (pollCommand_causes _)
  | @pktAccept s hpos =>
    have hcauses : (packetAccepted s).causes = s.causes := by rw [packetAccepted_eq hpos]
    obtain ⟨htrace, -⟩ | ⟨htrace, -⟩ := packetAccepted_records hpos
    · exact .silent htrace hcauses
    · exact .polled htrace hcauses
  | @start netOk s hphase =>
    refine ⟨.one _ _, ?_⟩
    cases netOk
    · exact .one _ _
    · exact .nothing _
  | @rngScale s =>
    refine ⟨.nothing _, ?_⟩
    show AppendsAtMostOne _ (if _ then _ else _)
    split
    · exact .one _ _
    · exact .nothing _
  | pktRdFatal | pktSegbad | pktDesync | pktFatal | synBackoffThreshold =>
    exact ⟨.nothing _, .one _ _⟩
  | rbtClose | rbtReboot | rbtOpen | pubRaw | pubPreview => exact ⟨.one _ _, .nothing _⟩
  | cfgWrIgnored | cfgRd | startIgnored | pktRdSilent | pktSegok | synBackoff | rbtWarm | rsmStoreLr
  | rsmStoreHr | rsmStoreHr4 | rsmInvalid | rsmExtract | rngHold | rngScan | palMap =>
    exact .silent rfl rfl

/-- RESET is the host's alone (30_encoding.md R70). -/
theorem ne_reset_of_decode {i : Instr} {s : State} (h : decode (phaseSelector s .first) = .ok i) :
    i ≠ .reset := by
  rintro rfl
  exact absurd (decode_phaseSelector_not_writesConfiguration h) (by decide)

theorem hostAction_instr_eq_reset {a : HostAction} (h : a.instr = .reset) : a = .reset := by
  cases a with
  | reset => rfl
  | cfgWr _ _ | cfgRd _ | start _ => cases h

/-- Settles O45: a step runs one operation that writes the records; the first half of RANGE is silent. -/
theorem traceAndCausesGrowByAtMostOne : Obligations.TraceAndCausesGrowByAtMostOne := by
  unfold Obligations.TraceAndCausesGrowByAtMostOne
  intro s t hstep hmove
  show RecordsAppend (takeHost s) t
  obtain ⟨a, ha, hexec⟩ | ⟨-, hcore⟩ := step_next_cases hstep
  · exact effect_records_append (effect_of_exec hexec) fun hreset =>
      hmove (hostAction_instr_eq_reset hreset ▸ ha)
  · obtain ⟨-, rfl⟩ | ⟨i, -, hi, heffect⟩ | ⟨-, u, hfirst, hscale⟩ := coreStep_effects hcore
    · exact .silent rfl rfl
    · exact effect_records_append heffect (ne_reset_of_decode hi)
    · obtain ⟨-, htrace, hcauses⟩ := effect_firstHalf_frame hfirst
      rw [RecordsAppend, ← htrace, ← hcauses]
      exact effect_records_append hscale nofun

/-! ### Populated cells (41_reassembler.md R108) -/

/-- Writes of other values than the default never blank a place. -/
theorem readAt_foldl_ne_default {α : Type} [DecidableEq α] {β : Type} {d : α} {idx : β → Nat}
    {val : β → α} {bs : List β} {m : Mem α} {y : Nat} (hval : ∀ b ∈ bs, val b ≠ d)
    (h : readAt d m y ≠ d) :
    readAt d (bs.foldl (fun m b => writeAt d m (idx b) (val b)) m) y ≠ d := by
  induction bs generalizing m with
  | nil => exact h
  | cons b bs ih =>
    refine ih (fun c hc => hval c (List.mem_cons_of_mem _ hc)) ?_
    rw [readAt_writeAt]
    split
    · exact hval b List.mem_cons_self
    · exact h

/-- Extraction writes non-zero samples only (R106), and nothing else but RESET writes the grid. -/
theorem effect_keeps_populated {i : Instr} {s t : State} (h : Effect i s t) (hi : i ≠ .reset) {n : Nat}
    (hn : readAt 0 s.grid n ≠ 0) : readAt 0 t.grid n ≠ 0 := by
  by_cases hextract : i = .rsmExtract
  · subst hextract
    cases h
    rw [goto_grid, foldl_extractSample]
    refine readAt_foldl_ne_default (fun x hx => ?_) hn
    obtain ⟨-, -, -, hne⟩ := (mem_frameSamples s x).1 hx
    exact hne
  · obtain ⟨-, -, hgrid, -⟩ := effect_memories_frame h
    rwa [hgrid (by simp [hextract, hi])]

/-- Settles O23: each operation of a step, one or two, keeps the cell populated. -/
theorem populatedCellsStayPopulated : Obligations.PopulatedCellsStayPopulated := by
  unfold Obligations.PopulatedCellsStayPopulated
  intro s t hstep hmove n hn
  obtain ⟨a, ha, hexec⟩ | ⟨-, hcore⟩ := step_next_cases hstep
  · exact effect_keeps_populated (effect_of_exec hexec)
      (fun hreset => hmove (hostAction_instr_eq_reset hreset ▸ ha)) hn
  · obtain ⟨-, rfl⟩ | ⟨i, -, hi, heffect⟩ | ⟨-, u, hfirst, hscale⟩ := coreStep_effects hcore
    · exact hn
    · exact effect_keeps_populated heffect (ne_reset_of_decode hi) hn
    · have hu : readAt 0 u.grid n ≠ 0 := hfirst.elim (effect_keeps_populated · nofun hn)
        (effect_keeps_populated · nofun hn)
      exact effect_keeps_populated hscale nofun hu

/-! ### The graph of phases (10_state.md R12, 40_synchronizer.md R80, 41_reassembler.md R100) -/

/-- A phase selects operations that run in a phase. -/
theorem phaseOf_of_decode {i : Instr} {s : State} (h : decode (phaseSelector s .first) = .ok i) :
    phaseOf i ≠ none := by
  have hphase : decodePhase s.phase.code s.cfgVariant s.segId s.cfgAuto = .ok i := h
  unfold decodePhase at hphase
  repeat' split at hphase
  all_goals cases hphase <;> nofun

theorem effect_packetOp_successor {op : PacketOp} {s t : State} (h : Effect op.instr s t) :
    t.phase ∈ Phase.successors .seek := by
  cases op with
  | accept =>
    cases h with
    | pktAccept hpos =>
      rw [packetAccepted_phase hpos]
      split <;> decide
  | segok seg | segbad seg | desync | fatal =>
    cases h
    simp [Phase.successors]

/-- Every operation of the core but the first half of RANGE follows an edge, or waits for the bus. -/
theorem effect_follows_edge {i : Instr} {s t : State} (hruns : Runs i s) (h : Effect i s t)
    (hcore : phaseOf i ≠ none) (hfirst : i ≠ .rngHold ∧ i ≠ .rngScan) :
    t.phase ∈ s.phase.successors ∨ (s.phase = .seek ∧ s.busIn = [] ∧ t = s) := by
  cases h with
  | cfgWr | cfgWrIgnored | cfgRd | start | startIgnored | reset | cmdPoll => exact absurd rfl hcore
  | rngHold => exact absurd rfl hfirst.1
  | rngScan => exact absurd rfl hfirst.2
  | pktRdSilent hbus => exact .inr ⟨hruns, hbus, rfl⟩
  | pktRdPacket hbus hpos hop =>
    rw [hruns.phase_eq rfl]
    exact .inl (effect_packetOp_successor hop)
  | pktAccept hpos =>
    rw [hruns.phase_eq rfl]
    exact .inl (effect_packetOp_successor (op := .accept) (.pktAccept hpos))
  | _ =>
    rw [hruns.phase_eq rfl]
    simp [Phase.successors, rangeScaled]

/-- A host move keeps the phase, but for RESET and START in IDLE (45_host_control.md R145). -/
theorem effect_hostAction_phase {a : HostAction} {s t : State} (h : Effect a.instr s t) :
    t.phase = s.phase ∨ (a = .reset ∧ t.phase = .idle) ∨
      (∃ netOk, a = .start netOk ∧ s.phase = .idle ∧ t.phase = .attBegin) := by
  cases a with
  | cfgWr num value =>
    cases h with
    | cfgWr => exact .inl (writeReg_phase _ _ _)
    | cfgWrIgnored => exact .inl rfl
  | cfgRd num =>
    cases h
    exact .inl rfl
  | start netOk =>
    cases h with
    | start hphase => exact .inr (.inr ⟨netOk, rfl, hphase, rfl⟩)
    | startIgnored => exact .inl rfl
  | reset =>
    cases h
    exact .inr (.inl ⟨rfl, rfl⟩)

/-- Settles O39: the step's last operation follows the edge. -/
theorem phaseMovesOnlyAlongTheGraph : Obligations.PhaseMovesOnlyAlongTheGraph := by
  unfold Obligations.PhaseMovesOnlyAlongTheGraph
  intro s t hstep
  obtain ⟨a, ha, hexec⟩ | ⟨hnone, hcore⟩ := step_next_cases hstep
  · refine ⟨fun hnone => absurd (ha.symm.trans hnone) nofun, fun b hb => ?_⟩
    cases ha.symm.trans hb
    exact effect_hostAction_phase (s := takeHost s) (effect_of_exec hexec)
  · refine ⟨fun _ => ?_, fun b hb => absurd (hb.symm.trans hnone) nofun⟩
    obtain ⟨hidle, rfl⟩ | ⟨i, hphase, hi, heffect⟩ | ⟨hphase, u, hfirst, hscale⟩ := coreStep_effects hcore
    · exact .inr ⟨.inl hidle, rfl⟩
    · have hruns := runs_of_decode hi
      have hne : i ≠ .rngHold ∧ i ≠ .rngScan := by
        constructor <;> rintro rfl <;> exact hphase hruns
      obtain hedge | ⟨hseek, hbus, rfl⟩ := effect_follows_edge hruns heffect (phaseOf_of_decode hi) hne
      · exact .inl hedge
      · exact .inr ⟨.inr ⟨hseek, hbus⟩, rfl⟩
    · obtain ⟨huphase, -⟩ := effect_firstHalf_frame hfirst
      cases hscale
      rw [show s.phase = .range from hphase]
      exact .inl (List.mem_singleton.2 rfl)

end Sys2Proof.Machine

namespace Sys2Proof.Machine

/-! ### Header bits that are never looked at (30_encoding.md R71) -/

/-- Settles O9: the ordered test in the packet's bytes reads byte 1, and byte 0 above its low nibble
only where it tests the segment. -/
theorem selectionIgnoresOtherHeaderBits : Obligations.SelectionIgnoresOtherHeaderBits := by
  unfold Obligations.SelectionIgnoresOtherHeaderBits
  intro p p' pos v hbyte1 hnibble
  rw [decodePacket_packetHeader, decodePacket_packetHeader, hbyte1]
  obtain heq | hplain : packetByte p 0 / 16 = packetByte p' 0 / 16 ∨ ¬ (v = 1 ∧ pos.toNat = 20) := by
    obtain heq | rfl | hpos := hnibble
    · exact .inl heq
    · exact .inr fun h => absurd h.1 (by decide)
    · exact .inr fun h => hpos h.2
  · rw [heq]
  · rw [if_neg hplain, if_neg hplain]

/-! ### Positions (41_reassembler.md R105, R107) -/

/-- R107's inverse gives a payload position of the frame. -/
theorem slotAndIndexAt_spec {v : BitVec 1} {rc : Nat × Nat} (h : inBounds v rc = true) :
    (slotAndIndexAt v rc).1 < Config.segCount v ∧ isPayload (slotAndIndexAt v rc).2 := by
  obtain ⟨hrow, hcol⟩ := (inBounds_iff v rc).1 h
  obtain rfl | rfl := variant_cases v <;>
    simp [slotAndIndexAt, Config.segCount, Config.height, Config.width, isPayload] at hrow hcol ⊢ <;>
    omega

/-- `positionOf` undoes R107's inverse on the active area. -/
theorem positionOf_slotAndIndexAt {v : BitVec 1} {rc : Nat × Nat} (h : inBounds v rc = true) :
    positionOf (slotAndIndexAt v rc).2 (slotAndIndexAt v rc).1 v = rc := by
  obtain ⟨r, c⟩ := rc
  obtain ⟨hrow, hcol⟩ := (inBounds_iff v (r, c)).1 h
  obtain rfl | rfl := variant_cases v <;>
    simp [positionOf, slotAndIndexAt, Config.height, Config.width] at hrow hcol ⊢ <;> omega

/-- Settles O21: in the active area by the bounds test, recovered by R107's inverse, and onto because
that inverse lands on payload positions. -/
theorem positionsFillActiveAreaOnce : Obligations.PositionsFillActiveAreaOnce := by
  unfold Obligations.PositionsFillActiveAreaOnce
  refine fun v => ⟨fun k i hk hi => ?_, fun r c hr hc => ?_⟩
  · obtain ⟨hrow, hcol⟩ := (inBounds_iff v _).1 (inBounds_positionOf hk hi)
    have hinverse := slotAndIndexAt_positionOf hk hi
    refine ⟨hrow, hcol, ?_, ?_⟩
    · rintro rfl
      obtain ⟨hslot, hindex⟩ := Prod.mk.inj hinverse
      exact ⟨rfl, hslot.symm, hindex.symm⟩
    · rintro rfl
      obtain ⟨hslot, hindex⟩ := Prod.mk.inj hinverse
      exact ⟨rfl, hslot.symm, hindex.symm⟩
  · have hin : inBounds v (r, c) = true := (inBounds_iff v (r, c)).2 ⟨hr, hc⟩
    obtain ⟨hk, hi⟩ := slotAndIndexAt_spec hin
    exact ⟨_, _, hk, hi, positionOf_slotAndIndexAt hin⟩

/-! ### The scaled value (43_palette_mapper.md R127) -/

theorem toNat_pos_of_ne_zero {d : BitVec 16} (hd : d ≠ 0) : (1 : Int) ≤ d.toNat := by
  have hne : d.toNat ≠ 0 := fun h => hd (BitVec.eq_of_toNat_eq h)
  omega

/-- The quotient by a positive divisor is the floor. -/
theorem scaledValue_floor (lo v : BitVec 16) {d : BitVec 16} (hd : d ≠ 0) :
    scaledValue lo d v * d.toNat ≤ ((v.toNat : Int) - lo.toNat) * 255 ∧
    ((v.toNat : Int) - lo.toNat) * 255 < (scaledValue lo d v + 1) * d.toNat := by
  have hpos := toNat_pos_of_ne_zero hd
  rw [Int.add_mul, Int.one_mul]
  exact (Int.ediv_eq_iff_of_pos (by omega)).1 rfl

/-- The multiplier of R127 as an integer. -/
theorem scaleNum_cast : ((Config.scaleNum : Nat) : Int) = 255 := rfl

/-- Dividing by at least 1 does not leave the range of the dividend. -/
theorem scaledValue_range (lo v : BitVec 16) {d : BitVec 16} (hd : d ≠ 0) :
    -16711425 ≤ scaledValue lo d v ∧ scaledValue lo d v ≤ 16711425 := by
  have hpos := toNat_pos_of_ne_zero hd
  have hlo := lo.isLt
  have hv := v.isLt
  refine ⟨(Int.le_ediv_iff_mul_le (by omega)).2 ?_, Int.ediv_le_of_le_mul (by omega) ?_⟩
  all_goals rw [scaleNum_cast]; omega

/-- Settles O28: the floor by the quotient's two bounds, the range by a divisor of at least 1. -/
theorem scaledValueIsExactFloor : Obligations.ScaledValueIsExactFloor := by
  unfold Obligations.ScaledValueIsExactFloor
  intro lo d v hd
  obtain ⟨hle, hlt⟩ := scaledValue_floor lo v hd
  exact ⟨hle, hlt, scaledValue_range lo v hd⟩

/-! ### The clamp of each channel (43_palette_mapper.md R128) -/

theorem length_entries (p : Palette) : p.entries.length = p.len := rfl

/-- Below the ROM: its first entry. -/
theorem channel_of_neg (p : Palette) {o : Int} (h : o < 0) : channel p o = p.first := by
  have hclamp : clamp o 0 ((p.len : Int) - 1) = 0 := by
    have hlen : 1 ≤ p.len := Nat.succ_le_succ (Nat.zero_le _)
    unfold clamp
    omega
  rw [channel, hclamp]
  rfl

/-- Inside the ROM: the entry of the offset. -/
theorem channel_of_lt (p : Palette) {o : Nat} (h : o < p.len) : some (channel p o) = p.entries[o]? := by
  have hclamp : (clamp (o : Int) 0 ((p.len : Int) - 1)).toNat = o := by
    unfold clamp
    omega
  rw [channel, hclamp, List.getD_eq_getElem?_getD, List.getElem?_eq_getElem (by rwa [length_entries])]
  rfl

/-- Past the ROM: as at its last offset. -/
theorem channel_of_le (p : Palette) {o : Int} (h : (p.len : Int) ≤ o) :
    channel p o = channel p ((p.len : Int) - 1) := by
  have hlen : 1 ≤ p.len := Nat.succ_le_succ (Nat.zero_le _)
  have hclamp : clamp o 0 ((p.len : Int) - 1) = clamp ((p.len : Int) - 1) 0 ((p.len : Int) - 1) := by
    unfold clamp
    omega
  rw [channel, hclamp, ← channel]

/-- Past the ROM: its last entry. -/
theorem channel_last (p : Palette) {o : Int} (h : (p.len : Int) ≤ o) :
    some (channel p o) = p.entries[p.len - 1]? := by
  have hlen : 1 ≤ p.len := Nat.succ_le_succ (Nat.zero_le _)
  rw [channel_of_le p h, ← channel_of_lt p (show p.len - 1 < p.len by omega)]
  congr 2
  omega

/-- An offset from the last on gives the last entry. -/
theorem channel_of_last_le (p : Palette) {o : Int} (h : (p.len : Int) - 1 ≤ o) :
    some (channel p o) = p.entries[p.len - 1]? := by
  have hlen : 1 ≤ p.len := Nat.succ_le_succ (Nat.zero_le _)
  obtain hpast | hlast : (p.len : Int) ≤ o ∨ o = ((p.len - 1 : Nat) : Int) := by omega
  · exact channel_last p hpast
  · rw [hlast]
    exact channel_of_lt p (by omega)

/-- Under the lower bound the scaled value is negative. -/
theorem scaledValue_neg {lo d v : BitVec 16} (hd : d ≠ 0) (h : v.toNat < lo.toNat) :
    scaledValue lo d v < 0 := by
  have hpos := toNat_pos_of_ne_zero hd
  refine Int.ediv_neg_of_neg_of_pos ?_ (by omega)
  rw [scaleNum_cast]
  omega

theorem scaledValue_self (lo d : BitVec 16) : scaledValue lo d lo = 0 := by
  simp [scaledValue]

/-- The upper bound maps to 255. -/
theorem scaledValue_of_width {lo d v : BitVec 16} (hd : d ≠ 0) (h : d.toNat = v.toNat - lo.toNat) :
    scaledValue lo d v = 255 := by
  have hpos := toNat_pos_of_ne_zero hd
  have hwidth : (v.toNat : Int) - lo.toNat = d.toNat := by omega
  rw [scaledValue, hwidth, Int.mul_ediv_cancel_left _ (by omega)]
  rfl

/-- A degenerate range multiplies by 255. -/
theorem scaledValue_one (lo v : BitVec 16) : scaledValue lo 1 v = ((v.toNat : Int) - lo.toNat) * 255 :=
  Int.ediv_one _

/-- Settles O29: the sign and the size of each channel's offset decide which entry it takes. -/
theorem clampActsOnEachChannel : Obligations.ClampActsOnEachChannel := by
  unfold Obligations.ClampActsOnEachChannel
  intro P lo d v hd
  refine ⟨fun hunder => ?under, fun o ho => ⟨channel_of_le P ho, channel_last P ho⟩,
    fun o ho => channel_of_lt P ho, fun hlen hsv => ?whole, fun hlen hsv => ?short, ?lower,
    scaledValue_of_width hd, ?one⟩
  case under =>
    have hneg := scaledValue_neg hd hunder
    simp only [pixelOf]
    rw [channel_of_neg P (by omega), channel_of_neg P (by omega), channel_of_neg P (by omega)]
  case whole =>
    have hlast {o : Int} (ho : 767 ≤ o) : some (channel P o) = P.entries[767]? := by
      have h := channel_of_last_le P (o := o) (by omega)
      rwa [hlen] at h
    refine ⟨channel P 767, (hlast (Int.le_refl _)).symm, ?_⟩
    have hsame {o : Int} (ho : 767 ≤ o) : channel P o = channel P 767 :=
      Option.some.inj ((hlast ho).trans (hlast (Int.le_refl _)).symm)
    simp only [pixelOf, Pixel.mk.injEq]
    exact ⟨hsame (by omega), hsame (by omega), hsame (by omega)⟩
  case short =>
    have hred := channel_of_lt P (o := 765) (by omega)
    have hgreen := channel_of_lt P (o := 766) (by omega)
    have hblue : channel P 767 = channel P 766 := by
      have h := channel_of_le P (o := 767) (by omega)
      rwa [hlen] at h
    refine ⟨channel P 765, channel P 766, hred.symm, hgreen.symm, ?_⟩
    simp only [pixelOf, hsv]
    exact congrArg (Pixel.mk _ _) hblue
  case lower =>
    rintro rfl
    exact scaledValue_self v d
  case one =>
    rintro rfl
    exact scaledValue_one lo v

/-! ### The token match (30_encoding.md R64) -/

/-- Settles O30, which `hasToken_iff` states. -/
theorem tokenMatchIsSubstringSearch : Obligations.TokenMatchIsSubstringSearch := by
  unfold Obligations.TokenMatchIsSubstringSearch
  exact hasToken_iff

/-! ### RESET, the step and the invariants at reset -/

/-- Settles O5: RESET is defined as the reset state of the same parameters with the inputs kept. -/
theorem resetKeepsWhatIsPending : Obligations.ResetKeepsWhatIsPending := by
  unfold Obligations.ResetKeepsWhatIsPending
  exact fun s => rfl

/-- Settles O37: a host move by the step's equation, the core's operation by phase RANGE or not. -/
theorem stepRunsTheSelectedOperation : Obligations.StepRunsTheSelectedOperation := by
  unfold Obligations.StepRunsTheSelectedOperation
  refine fun s => ⟨fun a ha => ?_, fun hnone i hi => ⟨fun hphase => ?_, fun hphase => ?_⟩⟩
  · rw [step_eq, ha]
  · rw [step_eq, hnone]
    exact coreStep_of_ne_range (s := takeHost s) hphase hi
  · rw [step_eq, hnone]
    exact coreStep_of_range (s := takeHost s) hphase hi

/-- Settles O38: IDLE and a silent bus both leave the state as it was. -/
theorem coreWaitsInIdleAndOnSilentBus : Obligations.CoreWaitsInIdleAndOnSilentBus := by
  unfold Obligations.CoreWaitsInIdleAndOnSilentBus
  refine fun s => ⟨exec_pktRd_silent, fun hnone hwaits => ?_⟩
  rw [step_eq, hnone]
  obtain hidle | ⟨hseek, hbus⟩ := hwaits
  · exact coreStep_idle (s := takeHost s) hidle
  · have hphase : (takeHost s).phase = .seek := hseek
    rw [coreStep_eq, hphase]
    exact exec_pktRd_silent (s := takeHost s) hbus

/-- Settles O46: the reset state is in IDLE with every register at 0, every memory and record empty. -/
theorem resetSatisfiesEveryInvariant : Obligations.ResetSatisfiesEveryInvariant := by
  unfold Obligations.ResetSatisfiesEveryInvariant
  intro params
  refine ⟨?sequencer, ?range, ?memory, ?segments, rfl, rfl, rfl⟩
  case sequencer => exact (sequencerInv_iff _).2 ⟨rfl, rfl, rfl, rfl⟩
  case range => simp [RangeInv]
  case memory =>
    refine memoryInv_of_no_image rfl (fun k _ => ?_) rfl rfl
    rw [slot_resetWith, memWf_nil]
  case segments => exact segmentInv_of_idle rfl fun k _ => slot_resetWith params k

/-- Settles O55: each operation's guard, and for PAL.MAP the missing palette. -/
theorem outOfRangeRegistersStopByName : Obligations.OutOfRangeRegistersStopByName := by
  unfold Obligations.OutOfRangeRegistersStopByName
  refine ⟨fun s => exec_pktAccept_of_le, fun s p rest => exec_pktRd_of_le,
    fun s hresets => exec_pktDesync_of_le (Nat.le_of_eq hresets.symm),
    fun s => exec_rsmStoreHr_of_not_valid, fun s hpalette => ?reserved, fun s hpalette hdiff => ?zero⟩
  case reserved =>
    refine exec_palMap_of_no_palette ?_
    rw [hpalette]
    rfl
  case zero =>
    obtain ⟨p, hp⟩ := selectPalette_of_ne_three s.params hpalette
    exact exec_palMap_of_zero_diff hp hdiff

/-- Settles O58: the decoder evaluated on the words. -/
theorem tableWordsDecode : Obligations.TableWordsDecode := by
  unfold Obligations.TableWordsDecode
  refine ⟨?_, ?_, ?_, ?_, ?_, ?_, ?_, ?_⟩
  all_goals rfl

end Sys2Proof.Machine

namespace Sys2Proof.Machine

/-! ### Runs without host moves (00_scope.md R6) -/

theorem run_step {n : Nat} {s u : State} (h : step s = .next u) : core.run (n + 1) s = core.run n u := by
  have hstep : core.step s = .next u := h
  simp only [Host.Core.run, hstep]

/-- A run that goes on begins with a step that does. -/
theorem run_succ_next {n : Nat} {s t : State} (h : core.run (n + 1) s = .next t) :
    ∃ u, step s = .next u ∧ core.run n u = .next t := by
  have hcore : core.step s = step s := rfl
  cases hstep : step s with
  | next u => exact ⟨u, rfl, (run_step hstep).symm.trans h⟩
  | fault e | refused e => simp [Host.Core.run, hcore, hstep] at h

/-- Runs follow each other. -/
theorem run_add {m : Nat} {s u : State} (n : Nat) (h : core.run m s = .next u) :
    core.run (m + n) s = core.run n u := by
  induction m generalizing s with
  | zero =>
    cases h
    rw [Nat.zero_add]
  | succ m ih =>
    obtain ⟨v, hstep, hrest⟩ := run_succ_next h
    rw [Nat.add_right_comm, run_step hstep, ih hrest]

/-- If `k` steps always lead from stage `n` to stage `n + 1`, `k` times `N` steps lead to stage `N`. -/
theorem run_stages {P : Nat → State → Prop} {k N : Nat} {s : State} (h0 : P 0 s)
    (hstage : ∀ n t, n < N → P n t → ∃ u, core.run k t = .next u ∧ P (n + 1) u) :
    ∃ t, core.run (k * N) s = .next t ∧ P N t := by
  induction N with
  | zero => exact ⟨s, rfl, h0⟩
  | succ N ih =>
    obtain ⟨t, hrun, ht⟩ := ih fun n t hn => hstage n t (Nat.lt_succ_of_lt hn)
    obtain ⟨u, hlast, hu⟩ := hstage N t (Nat.lt_succ_self N) ht
    exact ⟨u, by rw [Nat.mul_succ, run_add k hrun, hlast], hu⟩

/-- Without a host move a step is the core's. -/
theorem step_eq_coreStep {s : State} (h : s.hostIn = []) : step s = coreStep s := by
  have hmove : hostMove s = none := by rw [hostMove, h]; rfl
  have htake : takeHost s = s := by
    cases s
    cases h
    rfl
  rw [step_eq, hmove, htake]

/-- Without a host move a step in a phase with one operation runs it. -/
theorem step_of_selectedIn {i : Instr} {p : Phase} {s : State} (hselected : SelectedIn i p)
    (hp : p ≠ .range) (hhost : s.hostIn = []) (hphase : s.phase = p) : step s = exec i s := by
  rw [step_eq_coreStep hhost]
  exact coreStep_of_ne_range (hphase ▸ hp) (hselected s hphase)

/-- The first step of a run in such a phase. -/
theorem run_of_selectedIn {i : Instr} {p : Phase} {n : Nat} {s u : State} (hselected : SelectedIn i p)
    (hp : p ≠ .range) (hhost : s.hostIn = []) (hphase : s.phase = p) (hexec : exec i s = .next u) :
    core.run (n + 1) s = core.run n u :=
  run_step ((step_of_selectedIn hselected hp hhost hphase).trans hexec)

/-! ### A pass of packets in order (40_synchronizer.md R93) -/

/-- `t` is `s` after PKT.RD has taken the packet `p` in order. -/
structure PacketTaken (p : Packet) (rest : List BusAnswer) (s t : State) : Prop where
  frame : AcquisitionFrame s t
  phase : t.phase = if s.pos.toNat = 59 then .reasm else .seek
  pos : t.pos.toNat = s.pos.toNat + 1
  resets : t.resets = s.resets
  segId : t.segId =
    if s.cfgVariant = 1 ∧ s.pos.toNat = 20 then BitVec.ofNat 4 (packetByte p 0 / 16) else s.segId
  busIn : t.busIn = rest
  pktbuf : t.pktbuf = (packetStored s p rest).pktbuf
  polls : t.calls.countP Call.isPoll =
    s.calls.countP Call.isPoll + if s.pos.toNat ∈ [19, 39, 59] then 1 else 0
  sends : t.trace.filter Event.isNetSend = s.trace.filter Event.isNetSend

/-- A poll sends no datagram. -/
theorem filter_polledEvents (s : State) : (polledEvents s).filter Event.isNetSend = [] := by
  rw [List.filter_eq_nil_iff, ← List.countP_eq_zero]
  exact countP_polledEvents rfl s

/-- A bus read is no poll. -/
theorem polls_packetStored (s : State) (p : Packet) (rest : List BusAnswer) :
    (packetStored s p rest).calls.countP Call.isPoll = s.calls.countP Call.isPoll := by
  show (s.calls ++ [Call.busRead]).countP Call.isPoll = _
  rw [List.countP_append]
  rfl

/-- An accepted packet polls at the three poll points (40_synchronizer.md R83). -/
theorem polls_packetAccepted {s : State} (hpos : s.pos.toNat < 60) :
    (packetAccepted s).calls.countP Call.isPoll =
      s.calls.countP Call.isPoll + if s.pos.toNat ∈ [19, 39, 59] then 1 else 0 := by
  rw [packetAccepted_eq hpos, List.countP_append]
  split <;> rfl

/-- PKT.RD with the expected packet, in high-res at position 20 with a valid identifier. -/
theorem exec_pktRd_in_order {s : State} {p : Packet} {rest : List BusAnswer}
    (hbus : s.busIn = .packet p :: rest) (hpos : s.pos.toNat < 60) (hseq : packetByte p 1 = s.pos.toNat)
    (hseg : s.cfgVariant = 1 → s.pos.toNat = 20 → 1 ≤ packetByte p 0 / 16 ∧ packetByte p 0 / 16 ≤ 4) :
    ∃ t, exec .pktRd s = .next t ∧ PacketTaken p rest s t := by
  have hread := exec_pktRd_packet hbus hpos
  rw [decodePacket_packetHeader, if_neg (not_not_intro hseq)] at hread
  by_cases h20 : s.cfgVariant = 1 ∧ s.pos.toNat = 20
  · rw [if_pos h20, if_pos (hseg h20.1 h20.2)] at hread
    refine ⟨_, hread, effect_pktRd_frame (effect_of_exec hread), ?_, ?_, rfl, (if_pos h20).symm, rfl, rfl,
      ?_, rfl⟩
    · rw [h20.2]
      rfl
    · rw [h20.2]
      rfl
    · rw [h20.2]
      exact polls_packetStored s p rest
  · rw [if_neg h20] at hread
    have hstored : (packetStored s p rest).pos.toNat < 60 := hpos
    have hread := hread.trans (execPktAccept_eq _ hstored)
    refine ⟨_, hread, effect_pktRd_frame (effect_of_exec hread), packetAccepted_phase hstored,
      ?position, ?count, ?identifier, ?bus, ?stored, ?polls, ?sends⟩
    case sends =>
      obtain ⟨htrace, -⟩ | ⟨htrace, -⟩ := packetAccepted_records hstored
      · rw [htrace]
        rfl
      · rw [htrace, List.filter_append, filter_polledEvents, List.append_nil]
        rfl
    case polls =>
      exact (polls_packetAccepted hstored).trans (congrArg (· + _) (polls_packetStored s p rest))
    all_goals rw [packetAccepted_eq hstored]
    case position => exact ofNat_succ_pos_toNat hpos
    case count | bus => rfl
    case identifier => exact (if_neg h20).symm

/-- `t` is `s` after `n` packets of the pass have been taken in order. -/
structure PassTaken (packets : List Packet) (rest : List BusAnswer) (s : State) (n : Nat) (t : State) :
    Prop where
  frame : AcquisitionFrame s t
  phase : t.phase = if n = 60 then .reasm else .seek
  pos : t.pos.toNat = n
  resets : t.resets = s.resets
  busIn : t.busIn = (packets.drop n).map .packet ++ rest
  bytes : ∀ q b p, q < n → packets[q]? = some p → b < 164 →
    (readAt 0 t.pktbuf (164 * q + b)).toNat = packetByte p b
  segId : ∀ p, s.cfgVariant = 1 → 20 < n → packets[20]? = some p → t.segId.toNat = packetByte p 0 / 16
  polls : t.calls.countP Call.isPoll = s.calls.countP Call.isPoll + n / 20
  sends : t.trace.filter Event.isNetSend = s.trace.filter Event.isNetSend

theorem AcquisitionFrame.cfgVariant_eq {s t : State} (h : AcquisitionFrame s t) :
    t.cfgVariant = s.cfgVariant := by
  rw [show t = _ from h]

theorem AcquisitionFrame.hostIn_eq {s t : State} (h : AcquisitionFrame s t) : t.hostIn = s.hostIn := by
  rw [show t = _ from h]

/-- The next packet in order extends the pass. -/
theorem PassTaken.succ {packets : List Packet} {rest : List BusAnswer} {s t u : State} {n : Nat}
    {p : Packet} (h : PassTaken packets rest s n t) (hn : n < 60) (hp : packets[n]? = some p)
    (hu : PacketTaken p ((packets.drop (n + 1)).map .packet ++ rest) t u) :
    PassTaken packets rest s (n + 1) u where
  frame := h.frame.trans hu.frame
  phase := by
    rw [hu.phase, h.pos]
    exact ite_congr (propext (by omega)) (fun _ => rfl) fun _ => rfl
  pos := by rw [hu.pos, h.pos]
  resets := hu.resets.trans h.resets
  busIn := hu.busIn
  bytes q b p' hq hp' hb := by
    rw [hu.pktbuf, readAt_packetStored, h.pos]
    by_cases hlast : q = n
    · subst hlast
      cases hp.symm.trans hp'
      rw [if_pos (by omega), Nat.add_sub_cancel_left, packetByte]
    · rw [if_neg (by omega)]
      exact h.bytes q b p' (by omega) hp' hb
  segId p' hvariant hlt hp' := by
    rw [hu.segId, h.frame.cfgVariant_eq, h.pos]
    by_cases h20 : n = 20
    · subst h20
      cases hp.symm.trans hp'
      have hbyte : packetByte p 0 < 256 := BitVec.isLt _
      rw [if_pos ⟨hvariant, rfl⟩, BitVec.toNat_ofNat, Nat.mod_eq_of_lt (by omega)]
    · rw [if_neg fun hc => h20 hc.2]
      exact h.segId p' hvariant (by omega) hp'
  polls := by
    rw [hu.polls, h.polls, h.pos]
    simp only [List.mem_cons, List.not_mem_nil, or_false]
    split <;> omega
  sends := hu.sends.trans h.sends

theorem passTaken_zero {packets : List Packet} {rest : List BusAnswer} {s : State}
    (hphase : s.phase = .seek) (hpos : s.pos = 0) (hbus : s.busIn = packets.map .packet ++ rest) :
    PassTaken packets rest s 0 s where
  frame := rfl
  phase := hphase
  pos := by rw [hpos]; rfl
  resets := rfl
  busIn := hbus
  bytes _ _ _ hq := absurd hq (Nat.not_lt_zero _)
  segId _ _ hlt := absurd hlt (Nat.not_lt_zero _)
  polls := rfl
  sends := rfl

/-- Sixty packets in order are taken in sixty steps. -/
theorem run_pass {s : State} {packets : List Packet} {rest : List BusAnswer} (hphase : s.phase = .seek)
    (hpos : s.pos = 0) (hhost : s.hostIn = []) (hbus : s.busIn = packets.map .packet ++ rest)
    (hlen : packets.length = 60) (hseq : ∀ q p, packets[q]? = some p → packetByte p 1 = q)
    (hseg : ∀ p, s.cfgVariant = 1 → packets[20]? = some p →
      1 ≤ packetByte p 0 / 16 ∧ packetByte p 0 / 16 ≤ 4) :
    ∃ t, core.run 60 s = .next t ∧ PassTaken packets rest s 60 t := by
  refine run_stages (P := PassTaken packets rest s) (k := 1) (N := 60)
    (passTaken_zero hphase hpos hbus) fun n t hn ht => ?_
  have hp : packets[n]? = some packets[n] := List.getElem?_eq_getElem (by omega)
  have hnext : t.busIn =
      .packet packets[n] :: ((packets.drop (n + 1)).map .packet ++ rest) := by
    rw [ht.busIn, List.drop_eq_getElem_cons (by omega)]
    rfl
  have htseek : t.phase = .seek := by rw [ht.phase, if_neg (by omega)]
  have hthost : t.hostIn = [] := ht.frame.hostIn_eq.trans hhost
  obtain ⟨u, hread, hu⟩ := exec_pktRd_in_order hnext (by rw [ht.pos]; exact hn)
    (by rw [ht.pos]; exact hseq n _ hp) fun hvariant h20 => by
      rw [ht.pos] at h20
      subst h20
      exact hseg _ (ht.frame.cfgVariant_eq ▸ hvariant) hp
  obtain ⟨hselected, -⟩ := pktRdStoresThenRunsSelected
  exact ⟨u, run_of_selectedIn (n := 0) hselected (by decide) hthost htseek hread, ht.succ hn hp hu⟩

/-- Settles O17: what the pass of sixty packets leaves. -/
theorem cleanPassCompletesInSixtySteps : Obligations.CleanPassCompletesInSixtySteps := by
  unfold Obligations.CleanPassCompletesInSixtySteps
  intro s packets rest hphase hpos hresets hhost hbus hlen hseq hseg
  obtain ⟨t, hrun, ht⟩ := run_pass hphase hpos hhost hbus hlen hseq hseg
  have hdone : packets.drop 60 = [] := List.drop_eq_nil_of_le (by omega)
  refine ⟨t, hrun, ht.phase, ht.pos, ht.resets.trans hresets, ?_, fun q b p hp hb => ?_,
    fun p hvariant hp => ht.segId p hvariant (by decide) hp, ht.polls⟩
  · rw [ht.busIn, hdone]
    rfl
  · obtain ⟨hq, -⟩ := List.getElem?_eq_some_iff.1 hp
    exact ht.bytes q b p (by omega) hp hb

end Sys2Proof.Machine

namespace Sys2Proof.Machine

/-! ### A streak of desyncs (40_synchronizer.md R94) -/

/-- `s` in phase `p` after `n` packets of a streak have been read and refused, with what `pktbuf` and
the calls hold then. -/
def streakState (packets : List Packet) (rest : List BusAnswer) (s : State) (p : Phase) (n : Nat)
    (m : Mem Byte) (cs : List Call) : State :=
  { s with
    phase := p
    resets := BitVec.ofNat 10 n
    busIn := (packets.drop n).map .packet ++ rest
    causes := s.causes ++ List.replicate n .transientDesync
    pktbuf := m
    calls := cs }

/-- What a streak needs: the start of a pass, no host move, and packets that are not number 0. -/
structure StreakStart (packets : List Packet) (rest : List BusAnswer) (s : State) : Prop where
  phase : s.phase = .seek
  pos : s.pos = 0
  resets : s.resets = 0
  segId : s.segId = 0
  hostIn : s.hostIn = []
  busIn : s.busIn = packets.map .packet ++ rest
  desyncs : ∀ p ∈ packets, packetByte p 1 ≠ 0

theorem ofNat_resets_toNat {n : Nat} (h : n < 1024) : (BitVec.ofNat 10 n).toNat = n := by
  rw [BitVec.toNat_ofNat, Nat.mod_eq_of_lt h]

section Streak
variable {packets : List Packet} {rest : List BusAnswer} {s : State}

theorem StreakStart.eq_streakState (h : StreakStart packets rest s) :
    s = streakState packets rest s .seek 0 s.pktbuf s.calls := by
  obtain ⟨hphase, -, hresets, -, -, hbus, -⟩ := h
  cases s
  simp only at hphase hresets hbus
  simp [streakState, hphase, hresets, hbus]

/-- The next packet of the streak is refused. -/
theorem step_streak_desync (h : StreakStart packets rest s) {n : Nat} (hn : n < packets.length)
    (hlt : n < 1023) (m : Mem Byte) (cs : List Call) :
    ∃ m', step (streakState packets rest s .seek n m cs) =
      .next (streakState packets rest s .backoff (n + 1) m' (cs ++ [.busRead])) := by
  obtain ⟨-, hpos, -, hsegId, hhost, -, hdesyncs⟩ := h
  have hbus : (streakState packets rest s .seek n m cs).busIn =
      .packet packets[n] :: ((packets.drop (n + 1)).map .packet ++ rest) := by
    show (packets.drop n).map _ ++ rest = _
    rw [List.drop_eq_getElem_cons hn]
    rfl
  have hpos0 : (streakState packets rest s .seek n m cs).pos = 0 := hpos
  have hread := exec_pktRd_packet hbus (by rw [hpos0]; decide)
  have hseq : packetByte packets[n] 1 ≠ (0 : BitVec 6).toNat := hdesyncs _ (List.getElem_mem hn)
  rw [decodePacket_packetHeader, hpos0, if_pos hseq] at hread
  have hfits : (BitVec.ofNat 10 n).toNat < 1023 := by rw [ofNat_resets_toNat (by omega)]; exact hlt
  obtain ⟨hselected, -⟩ := pktRdStoresThenRunsSelected
  have hstep := (step_of_selectedIn (s := streakState packets rest s .seek n m cs) hselected (by decide)
    hhost rfl).trans (hread.trans (exec_pktDesync_of_lt hfits))
  refine ⟨(packetStored (streakState packets rest s .seek n m cs) packets[n]
    ((packets.drop (n + 1)).map .packet ++ rest)).pktbuf, hstep.trans ?_⟩
  have hresets : BitVec.ofNat 10 (n + 1) = BitVec.ofNat 10 n + 1 := by
    apply BitVec.eq_of_toNat_eq
    simp
  rw [streakState, streakState, hresets, List.replicate_succ', ← List.append_assoc, hpos, hsegId]
  rfl

/-- Below the threshold the back-off leads to the next attempt (40_synchronizer.md R88). -/
theorem step_streak_backoff (h : StreakStart packets rest s) {n : Nat} (hn : n < 750) (m : Mem Byte)
    (cs : List Call) : step (streakState packets rest s .backoff n m cs) =
      .next (streakState packets rest s .seek n m (cs ++ [.timerWait s.params.backoffTime])) := by
  have hresets : (BitVec.ofNat 10 n).toNat ≠ 750 := by rw [ofNat_resets_toNat (by omega)]; omega
  obtain ⟨hselected, -⟩ := backoffWaitsThenTestsThreshold
  exact (step_of_selectedIn (s := streakState packets rest s .backoff n m cs) hselected (by decide)
    h.hostIn rfl).trans (exec_synBackoff_below hresets)

/-- At the threshold it leads to the recovery. -/
theorem step_streak_threshold (h : StreakStart packets rest s) (m : Mem Byte) (cs : List Call) :
    step (streakState packets rest s .backoff 750 m cs) =
      .next (goto .rbtClose (raiseCause .persistentDesync (timerWait s.params.backoffTime
        (streakState packets rest s .backoff 750 m cs)))) := by
  obtain ⟨hselected, -⟩ := backoffWaitsThenTestsThreshold
  exact (step_of_selectedIn (s := streakState packets rest s .backoff 750 m cs) hselected (by decide)
    h.hostIn rfl).trans (exec_synBackoff_threshold rfl)

/-- Two steps for each packet of the streak below the threshold; none of them polls. -/
theorem run_streak (h : StreakStart packets rest s) (hlen : packets.length = 750) :
    ∃ m cs, core.run 1498 s = .next (streakState packets rest s .seek 749 m cs) ∧
      cs.countP Call.isPoll = s.calls.countP Call.isPoll := by
  have hstages := run_stages (k := 2) (N := 749) (s := s)
    (P := fun n t => ∃ m cs, t = streakState packets rest s .seek n m cs ∧
      cs.countP Call.isPoll = s.calls.countP Call.isPoll)
    ⟨s.pktbuf, s.calls, h.eq_streakState, rfl⟩ fun n t hn ht => ?_
  · obtain ⟨-, hrun, m, cs, rfl, hpolls⟩ := hstages
    exact ⟨m, cs, hrun, hpolls⟩
  · obtain ⟨m, cs, rfl, hpolls⟩ := ht
    obtain ⟨m', hdesync⟩ := step_streak_desync h (n := n) (by omega) (by omega) m cs
    have hbackoff := step_streak_backoff h (n := n + 1) (by omega) m' (cs ++ [.busRead])
    refine ⟨_, (run_step hdesync).trans (run_step (n := 0) hbackoff), m', _, rfl, ?_⟩
    rw [List.countP_append, List.countP_append, hpolls]
    rfl

end Streak

/-- What the recovery leaves: both error counters cleared, the handle open again, three events and the
warm-up recorded (40_synchronizer.md R89 to R92). -/
def recovered (s : State) : State :=
  { s with
    phase := .seek
    resets := 0
    invalidSegCount := 0
    busOpen := true
    trace := s.trace ++ [.busClose s.params.busId, .sensorReboot, .busOpen s.params.busId s.cfgBusClock]
    calls := s.calls ++ [.timerWait s.params.warmupTime] }

theorem run_recovery {s : State} (hphase : s.phase = .rbtClose) (hhost : s.hostIn = []) :
    core.run 4 s = .next (recovered s) := by
  obtain ⟨⟨hclose, hreboot, hwarm, hopen⟩, -⟩ := recoveryOperations
  calc core.run 4 s
    _ = core.run 3 _ := run_of_selectedIn hclose (by decide) hhost hphase rfl
    _ = core.run 2 _ := run_of_selectedIn hreboot (by decide) hhost rfl rfl
    _ = core.run 1 _ := run_of_selectedIn hwarm (by decide) hhost rfl rfl
    _ = core.run 0 _ := run_of_selectedIn hopen (by decide) hhost rfl rfl
    _ = .next (recovered s) := by
      simp [recovered, goto, emit, timerWait]
      rfl

/-- Where a whole streak ends: at its start, but for the recovery's events, the conditions recognised
and what no rule reads (R94). -/
def streakEnd (rest : List BusAnswer) (s : State) (m : Mem Byte) (cs : List Call) : State :=
  { s with
    busIn := rest
    invalidSegCount := 0
    trace := s.trace ++ [.busClose s.params.busId, .sensorReboot, .busOpen s.params.busId s.cfgBusClock]
    causes := s.causes ++ List.replicate 750 .transientDesync ++ [.persistentDesync]
    pktbuf := m
    calls := cs }

/-- The threshold and the recovery after the last packet of the streak. -/
theorem run_streak_end {packets : List Packet} {rest : List BusAnswer} {s : State}
    (h : StreakStart packets rest s) (hopen : s.busOpen = true) (hlen : packets.length = 750)
    (m : Mem Byte) (cs : List Call) :
    core.run 5 (streakState packets rest s .backoff 750 m cs) =
      .next (streakEnd rest s m
        (cs ++ [.timerWait s.params.backoffTime] ++ [.timerWait s.params.warmupTime])) := by
  have hrecovery := run_recovery (s := goto .rbtClose (raiseCause .persistentDesync
    (timerWait s.params.backoffTime (streakState packets rest s .backoff 750 m cs)))) rfl h.hostIn
  refine ((run_step (step_streak_threshold h m cs)).trans hrecovery).trans
    (congrArg Host.Outcome.next ?_)
  obtain ⟨hphase, -, hresets, -⟩ := h
  have hdone : packets.drop 750 = [] := List.drop_eq_nil_of_le (by omega)
  rw [streakState, hdone, streakEnd, hphase, hresets, hopen]
  rfl

/-- Settles O18: 749 desyncs with their back-offs, the last desync, the threshold, the recovery. -/
theorem rebootCycleOncePer750Desyncs : Obligations.RebootCycleOncePer750Desyncs := by
  unfold Obligations.RebootCycleOncePer750Desyncs
  intro s packets rest hphase hpos hresets hsegId hopen hhost hbus hlen hdesyncs
  have h : StreakStart packets rest s := ⟨hphase, hpos, hresets, hsegId, hhost, hbus, hdesyncs⟩
  obtain ⟨m, cs, hstreak, hpolls⟩ := run_streak h hlen
  obtain ⟨m', hlast⟩ := step_streak_desync h (n := 749) (by omega) (by decide) m cs
  have hend := run_streak_end h hopen hlen m' (cs ++ [.busRead])
  refine ⟨_, (run_add 6 hstreak).trans ((run_step hlast).trans hend), rfl, ?_⟩
  show List.countP _ (((cs ++ [Call.busRead]) ++ _) ++ _) = _
  rw [List.countP_append, List.countP_append, List.countP_append, hpolls]
  rfl

end Sys2Proof.Machine

namespace Sys2Proof.Machine

/-! ### The stages of a ready frame (44_publisher.md R134) -/

/-- What RSM.EXTRACT leaves. -/
def extracted (s : State) : State :=
  goto .range { s with grid := (frameSamples s).foldl (extractSample s.cfgVariant) s.grid }

/-- What the first half of RANGE leaves: the bounds held or scanned. -/
def bounded (s : State) : State :=
  if s.cfgAuto = 0 then s
  else { s with
    rangeMax := if autoMax s then runningMax (frameSamples s) else s.rangeMax
    rangeMin := if autoMin s then runningMin (frameSamples s) else s.rangeMin }

/-- What PAL.MAP leaves with a palette. -/
def mapped (p : Palette) (s : State) : State :=
  goto .pubRaw { s with preview := (frameSamples s).foldl (mapSample p s) s.preview }

/-- What the three operations of the publisher leave (R136, R137, R138). -/
def published (s : State) : State :=
  { s with
    trace := s.trace ++
      [.netSend (rawPayload s.params.outBigEndian s.grid),
        .previewFrame (Config.width s.cfgVariant) (Config.height s.cfgVariant)
          (previewPixels s.cfgVariant s.preview)] ++ polledEvents s
    pollIn := s.pollIn.tail
    calls := s.calls ++ [.netPoll s.pollIn.head?.join]
    phase := .attBegin }

theorem exec_bounded (s : State) :
    (if s.cfgAuto = 0 then exec .rngHold s else exec .rngScan s) = .next (bounded s) := by
  unfold bounded
  split <;> rfl

/-- The bounds alone can differ after the first half of RANGE. -/
theorem bounded_frame (s : State) :
    bounded s = { s with rangeMin := (bounded s).rangeMin, rangeMax := (bounded s).rangeMax } := by
  unfold bounded
  split <;> rfl

/-- A step in RANGE bounds and scales (42_range_tracker.md R115). -/
theorem step_range {s : State} (hhost : s.hostIn = []) (hphase : s.phase = .range) :
    step s = .next (rangeScaled (bounded s)) := by
  rw [step_eq_coreStep hhost, coreStep_eq, hphase]
  show andThen (if _ then _ else _) _ = _
  rw [exec_bounded, andThen_next, exec_rngScale]

/-- The publisher's three steps. -/
theorem run_published {s : State} (hhost : s.hostIn = []) (hphase : s.phase = .pubRaw) :
    core.run 3 s = .next (published s) := by
  obtain ⟨hraw, -⟩ := rawDatagramHoldsWholeGrid
  obtain ⟨hpreview, -⟩ := previewFrameIsRowMajorCopy
  obtain ⟨hpoll, hexec⟩ := pubPollPollsAndBeginsAnew
  calc core.run 3 s
    _ = core.run 2 _ := run_of_selectedIn hraw (by decide) hhost hphase rfl
    _ = core.run 1 _ := run_of_selectedIn hpreview (by decide) hhost rfl rfl
    _ = core.run 0 _ := run_of_selectedIn hpoll (by decide) hhost rfl (hexec _)
    _ = .next (published s) := by
      simp [published, goto, emit]
      rfl

/-- Six steps run all stages, each on what the one before leaves. -/
theorem run_ready_frame {s : State} {p : Palette} (hphase : s.phase = .extract) (hhost : s.hostIn = [])
    (hp : selectPalette s.params s.cfgPalette = some p) :
    exec .palMap (rangeScaled (bounded (extracted s))) =
        .next (mapped p (rangeScaled (bounded (extracted s)))) ∧
      core.run 6 s = .next (published (mapped p (rangeScaled (bounded (extracted s))))) := by
  obtain ⟨hextract, -⟩ := extractPlacesEveryNonzeroSample
  obtain ⟨hmap, -⟩ := mapPaintsEveryNonzeroSample
  have hframe := bounded_frame (extracted s)
  have hdiff : (rangeScaled (bounded (extracted s))).diff ≠ 0 := clampedDiff_ne_zero _ _
  have hselected : selectPalette (rangeScaled (bounded (extracted s))).params
      (rangeScaled (bounded (extracted s))).cfgPalette = some p := by
    rw [hframe]
    exact hp
  have hidle : (rangeScaled (bounded (extracted s))).hostIn = [] := by
    rw [hframe]
    exact hhost
  have hpalMap := exec_palMap_of_palette hselected hdiff
  refine ⟨hpalMap, ?_⟩
  calc core.run 6 s
    _ = core.run 5 (extracted s) := run_of_selectedIn hextract (by decide) hhost hphase rfl
    _ = core.run 4 (rangeScaled (bounded (extracted s))) := run_step (step_range hhost rfl)
    _ = core.run 3 (mapped p (rangeScaled (bounded (extracted s)))) :=
      run_of_selectedIn hmap (by decide) hidle rfl hpalMap
    _ = .next (published (mapped p (rangeScaled (bounded (extracted s))))) := run_published hidle rfl

/-- Settles O35: the six steps by their stages; the stages before the publisher write no record but
the causes. -/
theorem readyFrameRunsAllStages : Obligations.ReadyFrameRunsAllStages := by
  unfold Obligations.ReadyFrameRunsAllStages
  intro s hphase hhost hpalette
  obtain ⟨p, hp⟩ := selectPalette_of_ne_three s.params hpalette
  obtain ⟨hpalMap, hrun⟩ := run_ready_frame hphase hhost hp
  refine ⟨extracted s, bounded (extracted s), rangeScaled (bounded (extracted s)), _, _, rfl,
    exec_bounded (extracted s), exec_rngScale _, hpalMap, hrun, ?_, rfl, ⟨rfl, rfl, rfl, rfl, rfl⟩, ?_⟩
  all_goals
    have hframe := bounded_frame (extracted s)
    generalize bounded (extracted s) = b at hframe
    rw [hframe]
    rfl

end Sys2Proof.Machine

namespace Sys2Proof.Machine

/-! ### The raw datagram of a grid (30_encoding.md R66) -/

/-- With the low byte first, bytes `2n` and `2n + 1` give back cell `n`. -/
theorem rawPayload_cell (grid : Mem Sample) {n : Nat} (hn : n < 19200) :
    ((rawPayload false grid).getD (2 * n) 0).toNat +
      256 * ((rawPayload false grid).getD (2 * n + 1) 0).toNat = (readAt 0 grid n).toNat := by
  have hlow := rawPayload_getElem? false grid hn (b := 0) (by decide)
  have hhigh := rawPayload_getElem? false grid hn (b := 1) (by decide)
  have hcell := (readAt 0 grid n).isLt
  rw [Nat.add_zero] at hlow
  rw [List.getD_eq_getElem?_getD, List.getD_eq_getElem?_getD, hlow, hhigh]
  simp only [cellBytes, Bool.false_eq_true, if_false, List.getElem?_cons_zero, List.getElem?_cons_succ,
    Option.getD_some, BitVec.toNat_ofNat]
  omega

/-! ### The low-res image of a pass (44_publisher.md R139) -/

/-- The value of sample `c` of a packet, from its two bytes (20_memory.md R43). -/
def packetSample (p : Packet) (c : Nat) : Nat := packetByte p (4 + 2 * c) * 256 + packetByte p (5 + 2 * c)

/-- Slot 0 holds the bytes of the packets. -/
def SlotHolds (packets : List Packet) (s : State) : Prop :=
  ∀ q b p, packets[q]? = some p → b < 164 → (readAt 0 (s.slot 0) (164 * q + b)).toNat = packetByte p b

/-- The sample that goes to cell (`r`, `c`) in low-res. -/
theorem slotSample_of_slotHolds {packets : List Packet} {s : State} (h : SlotHolds packets s) {r c : Nat}
    {p : Packet} (hp : packets[r]? = some p) (hc : c < 80) :
    slotSample s 0 (82 * r + (c + 2)) = packetSample p c := by
  have hhigh := h r (4 + 2 * c) p hp (by omega)
  have hlow := h r (5 + 2 * c) p hp (by omega)
  have hindex : 2 * (82 * r + (c + 2)) = 164 * r + (4 + 2 * c) := by omega
  have hnext : 164 * r + (4 + 2 * c) + 1 = 164 * r + (5 + 2 * c) := by omega
  rw [slotSample, packetSample, hindex, hnext, hhigh, hlow]

/-- Extraction of a low-res frame of non-zero samples into an empty grid gives the image in the
top-left corner and 0 elsewhere. -/
theorem grid_of_low_res_frame {packets : List Packet} {s : State} (h : SlotHolds packets s)
    (hvariant : s.cfgVariant = 0) (hgrid : s.grid = []) (hlen : packets.length = 60)
    (hnonzero : ∀ p ∈ packets, ∀ c, c < 80 → packetSample p c ≠ 0) {r c : Nat} (hr : r < 120)
    (hc : c < 160) :
    (readAt 0 (extracted s).grid (160 * r + c)).toNat =
      if r < 60 ∧ c < 80 then packetSample (packets.getD r (packetOf 0)) c else 0 := by
  by_cases hin : r < 60 ∧ c < 80
  · have hp : packets[r]? = some (packets.getD r (packetOf 0)) := by
      rw [List.getD_eq_getElem?_getD, List.getElem?_eq_getElem (by omega)]
      rfl
    have hsample := slotSample_of_slotHolds h hp hin.2
    have hposition : positionOf (82 * r + (c + 2)) 0 s.cfgVariant = (r, c) := by
      rw [hvariant]
      exact positionOf_slotAndIndexAt (v := 0) (rc := (r, c)) ((inBounds_iff _ _).2 hin)
    have hcount : 0 < Config.segCount s.cfgVariant := by rw [hvariant]; decide
    obtain ⟨-, hextract⟩ := extractPlacesEveryNonzeroSample
    obtain ⟨t, hexec, -, hplaced, -⟩ := hextract s
    cases hexec
    have hcell := hplaced 0 (82 * r + (c + 2)) hcount ⟨by omega, by omega⟩
      (hsample ▸ hnonzero _ (List.mem_of_getElem? hp) c hin.2)
    rw [hposition, hsample] at hcell
    rw [if_pos hin]
    exact hcell
  · have hcell := readAt_extracted_outside_corner hvariant hc hin
    rw [hgrid, readAt_nil] at hcell
    rw [if_neg hin]
    show BitVec.toNat (readAt 0 ((frameSamples s).foldl (extractSample s.cfgVariant) s.grid) _) = 0
    rw [hgrid, hcell]
    rfl

/-- From a whole low-res pass, stored and run through the stages: one raw datagram with the image. -/
theorem run_low_res_frame {packets : List Packet} {s : State} (hphase : s.phase = .reasm)
    (hhost : s.hostIn = []) (hvariant : s.cfgVariant = 0) (hpalette : s.cfgPalette ≠ 3)
    (hgrid : s.grid = []) (horder : s.params.outBigEndian = false) (hlen : packets.length = 60)
    (hbytes : ∀ q b p, packets[q]? = some p → b < 164 →
      (readAt 0 s.pktbuf (164 * q + b)).toNat = packetByte p b)
    (hnonzero : ∀ p ∈ packets, ∀ c, c < 80 → packetSample p c ≠ 0) :
    ∃ t payload, core.run 7 s = .next t ∧
      t.trace.filter Event.isNetSend = s.trace.filter Event.isNetSend ++ [.netSend payload] ∧
      payload.length = 38400 ∧
      ∀ r c, r < 120 → c < 160 →
        (payload.getD (2 * (160 * r + c)) 0).toNat +
            256 * (payload.getD (2 * (160 * r + c) + 1) 0).toNat =
          if r < 60 ∧ c < 80 then packetSample (packets.getD r (packetOf 0)) c else 0 := by
  obtain ⟨hstore, -⟩ := segmentStoresFillOneSlot
  have hstep : step s = .next (goto .extract (storeSegment 0 s)) :=
    (step_eq_coreStep hhost).trans
      (coreStep_of_ne_range (by rw [hphase]; decide) (hstore s hphase hvariant))
  have hholds : SlotHolds packets (goto .extract (storeSegment 0 s)) := by
    intro q b p hp hb
    obtain ⟨hq, -⟩ := List.getElem?_eq_some_iff.1 hp
    obtain ⟨hslot, -⟩ := storesSlot_storeSegment .extract (k := 0) s (by decide)
    rw [hslot _ (by omega)]
    exact hbytes q b p hp hb
  obtain ⟨e, _, _, _, t, hextract, -, -, -, hrun, hgridEq, -, -, ht⟩ :=
    readyFrameRunsAllStages (goto .extract (storeSegment 0 s)) rfl hhost hpalette
  cases hextract
  refine ⟨t, rawPayload false t.grid, (run_step hstep).trans hrun, ?_, length_rawPayload _ _,
    fun r c hr hc => ?_⟩
  · have htrace := congrArg State.trace ht
    rw [htrace]
    show List.filter _ ((s.trace ++ [.netSend (rawPayload s.params.outBigEndian t.grid), _]) ++ _) = _
    rw [List.filter_append, List.filter_append, filter_polledEvents, List.append_nil, horder]
    rfl
  · rw [rawPayload_cell t.grid (by omega), hgridEq]
    exact grid_of_low_res_frame hholds hvariant hgrid hlen hnonzero hr hc

/-- START and the first ATT.BEGIN lead from IDLE to the start of a pass; they send no datagram. -/
theorem run_start {s : State} {netOk : Bool} (hphase : s.phase = .idle)
    (hhost : s.hostIn = [some (.start netOk)]) :
    ∃ t, core.run 2 s = .next t ∧
      t = { s with
        phase := .seek, pos := 0, resets := 0, segId := 0, hostIn := []
        netDegraded := t.netDegraded, rangeMin := t.rangeMin, rangeMax := t.rangeMax, busOpen := t.busOpen
        pollIn := t.pollIn, trace := t.trace, causes := t.causes, calls := t.calls } ∧
      t.trace.filter Event.isNetSend = s.trace.filter Event.isNetSend := by
  obtain ⟨hattBegin, hexec⟩ := attBeginClearsPassAndPolls
  have hmove : hostMove s = some (.start netOk) := by
    rw [hostMove, hhost]
    rfl
  have hstart : step s = .next (started netOk (takeHost s)) := by
    rw [step_eq, hmove]
    exact exec_start_in_idle (s := takeHost s) hphase
  have hempty : (started netOk (takeHost s)).hostIn = [] := by
    show s.hostIn.tail = []
    rw [hhost]
    rfl
  refine ⟨_, (run_step hstart).trans
    (run_of_selectedIn (n := 0) hattBegin (by decide) hempty rfl (hexec _)), ?_, ?_⟩
  · rw [hempty]
    rfl
  · show List.filter _ ((s.trace ++ [Event.busOpen _ _]) ++ polledEvents _) = _
    rw [List.filter_append, List.filter_append, filter_polledEvents, List.append_nil]
    exact List.append_nil _

/-- Settles O36: START and ATT.BEGIN, the pass of sixty packets, then its store and the stages of the
frame; nothing before the raw datagram sends one. -/
theorem lowResFrameEndToEnd : Obligations.LowResFrameEndToEnd := by
  unfold Obligations.LowResFrameEndToEnd
  intro params netOk packets polls horder hlen hseq hnonzero
  obtain ⟨s, hstart, hs, hsends⟩ := run_start (netOk := netOk) (s := { State.resetWith params with
    hostIn := [some (.start netOk)], busIn := packets.map .packet, pollIn := polls }) rfl rfl
  have hlow : s.cfgVariant = 0 := by rw [hs]; rfl
  obtain ⟨t, hpass, ht⟩ := run_pass (s := s) (packets := packets) (rest := []) (by rw [hs]) (by rw [hs])
    (by rw [hs]) (by rw [hs]; exact (List.append_nil _).symm) hlen hseq
    (fun p hvariant => absurd (hlow.symm.trans hvariant) (by decide))
  have hframe : t = _ := ht.frame
  have hhost : t.hostIn = [] := by rw [hframe, hs]
  have hvariant : t.cfgVariant = 0 := ht.frame.cfgVariant_eq.trans hlow
  have hpalette : t.cfgPalette = 0 := by rw [hframe, hs]; rfl
  have hgrid : t.grid = [] := by rw [hframe, hs]; rfl
  have hlittle : t.params.outBigEndian = false := by rw [hframe, hs]; exact horder
  have hbytes (q b : Nat) (p : Packet) (hp : packets[q]? = some p) (hb : b < 164) :
      (readAt 0 t.pktbuf (164 * q + b)).toNat = packetByte p b := by
    obtain ⟨hq, -⟩ := List.getElem?_eq_some_iff.1 hp
    exact ht.bytes q b p (by omega) hp hb
  obtain ⟨u, payload, hrun, hsent, himage⟩ := run_low_res_frame ht.phase hhost hvariant
    (by rw [hpalette]; decide) hgrid hlittle hlen hbytes hnonzero
  refine ⟨u, payload, (run_add 67 hstart).trans ((run_add 7 hpass).trans hrun), ?_, himage⟩
  rw [hsent, ht.sends, hsends]
  rfl

end Sys2Proof.Machine
